-- ==== Sys2Proof/Word.lean ====
section
/-! DEFINITION. The word types of the block: bytes, 32-bit addresses and fractions of a bit period (spec 00_scope R10, R12). -/

namespace Sys2Proof

/-- A byte (00_scope R12). Bit 0 is the least significant bit. -/
abbrev Byte := BitVec 8

/-- An address: ADDR_WIDTH = 32 bits, unsigned; its arithmetic wraps modulo 2^32 (00_scope R10, R12). -/
abbrev Addr := BitVec 32

/-- A fraction num / den, for the duty values of 00_scope R10 and the durations of 40_waveform_and_lines R112. -/
structure Frac where
  num : Nat
  den : Nat
deriving DecidableEq, Repr, Inhabited

/-- `a < b`, by cross-multiplication. -/
def Frac.lt (a b : Frac) : Bool := a.num * b.den < b.num * a.den

end Sys2Proof
end

