-- ==== Sys2Proof/Syntax.lean ====
section
/-! DEFINITION. The operations of the block: one constructor per row of spec/opcode_table.json (spec 30_encoding R99). -/

namespace Sys2Proof

/-- The 25 operations (30_encoding R99), each with the operands the table gives it. Counts, offsets, sizes and times are
natural numbers, addresses are 32 bits, values are bytes (30_encoding R102). -/
inductive Instr where
  /-- 0x01 INIT (41_buffer_manager R130). `rate` is the selector value the caller hands over; RATE_CODE says which two values
  are good (30_encoding R97). -/
  | init (n : Nat) (base : Addr) (size : Nat) (rate : Nat)
  /-- 0x02 WRITE_DRAW (41_buffer_manager R140). -/
  | writeDraw (off : Nat) (val : Byte)
  /-- 0x03 READ_DRAW (41_buffer_manager R141). -/
  | readDraw (off : Nat)
  /-- 0x04 MEM_WRITE (41_buffer_manager R142). -/
  | memWrite (addr : Addr) (val : Byte)
  /-- 0x05 MEM_READ (41_buffer_manager R143). -/
  | memRead (addr : Addr)
  /-- 0x06 SHOW (43_sequencer R170). -/
  | showOp
  /-- 0x07 BUSY (44_completion R192). -/
  | busy
  /-- 0x08 SWAP (41_buffer_manager R131). -/
  | swap
  /-- 0x11 SH_WAIT_INFLIGHT (43_sequencer R171). -/
  | shWaitInFlight
  /-- 0x12 SH_SWAP (43_sequencer R172). -/
  | shSwap
  /-- 0x13 SH_WAIT_GAP (43_sequencer R173). -/
  | shWaitGap
  /-- 0x14 SH_MASK (43_sequencer R174). -/
  | shMask
  /-- 0x15 SH_ALIGN_STOP (43_sequencer R175). -/
  | shAlignStop
  /-- 0x16 SH_ARM (43_sequencer R176). -/
  | shArm
  /-- 0x20 EDGE_RISE (40_waveform_and_lines R115). -/
  | edgeRise
  /-- 0x21 EDGE_FALL0 (40_waveform_and_lines R116). -/
  | edgeFall0
  /-- 0x22 EDGE_FALL1 (40_waveform_and_lines R117). -/
  | edgeFall1
  /-- 0x30 DMA_A (42_transmit_pipeline R153). -/
  | dmaA
  /-- 0x31 DMA_B (42_transmit_pipeline R154). -/
  | dmaB
  /-- 0x32 DMA_C (42_transmit_pipeline R155). -/
  | dmaC
  /-- 0x40 IRQ_COMPLETION (44_completion R190). -/
  | irqCompletion
  /-- 0x50 TIME (60_exceptions R223). -/
  | time (d : Nat)
  /-- 0x60 PORT_DATA (40_waveform_and_lines R121). -/
  | portData (v : Byte)
  /-- 0x61 PORT_SET (40_waveform_and_lines R122). -/
  | portSet (v : Byte)
  /-- 0x62 PORT_CLEAR (40_waveform_and_lines R123). -/
  | portClear (v : Byte)
deriving DecidableEq, Repr

end Sys2Proof
end

