-- ==== Sys2Proof/WellFormed.lean ====
section
/-! DEFINITION. The operand ranges an operation must meet to be given a meaning (spec 30_encoding R102). -/

namespace Sys2Proof

/-- 30_encoding R102: a TIME step has d ≥ 1; d = 0 is refused. Every other operand range is carried by the operand's type,
or is checked by the operation itself with a fault of its own (N and size by INIT, off by WRITE_DRAW and READ_DRAW). -/
def Instr.wellFormed : Instr → Bool
  | .time d => decide (1 ≤ d)
  | .init _ _ _ _ | .writeDraw _ _ | .readDraw _ | .memWrite _ _ | .memRead _ | .showOp | .busy | .swap
  | .shWaitInFlight | .shSwap | .shWaitGap | .shMask | .shAlignStop | .shArm | .edgeRise | .edgeFall0 | .edgeFall1
  | .dmaA | .dmaB | .dmaC | .irqCompletion | .portData _ | .portSet _ | .portClear _ => true

end Sys2Proof
end

