-- ==== Sys2Proof/Decode.lean ====
section
/-! DEFINITION. Operation records, the decoder, the encoder, and the agent and issuer columns of the table (spec 30_encoding
R98 to R102). Also the pseudo-operations of R104. -/

namespace Sys2Proof

/-- One operand of an operation record (30_encoding R98, R102). -/
inductive Operand where
  /-- A natural number: N, size, off, d, and INIT's rate selector. -/
  | nat (n : Nat)
  /-- A 32-bit address: base, addr. -/
  | addr (a : Addr)
  /-- A byte: val, v. -/
  | byte (v : Byte)
deriving DecidableEq, Repr

/-- An operation record ⟨op, operands⟩: an 8-bit operation code, and operands that are not packed into bits (30_encoding R98).
DESIGN CHOICE (log 11): the operand record is the list of its fields, in the order of R99. -/
structure Record where
  op : Byte
  args : List Operand
deriving DecidableEq, Repr

/-- The agents that take steps (00_scope R15). -/
inductive Agent where
  | host | isr | tmr | dmaA | dmaB | dmaC | clk
deriving DecidableEq, Repr, Inhabited

/-- Who may issue an operation: the "issued by" column of 30_encoding R99. -/
inductive Issuer where
  /-- "program": a HOST program. -/
  | program
  /-- "scheduler", and "scheduler, in SHOW". -/
  | scheduler
  /-- "SH_SWAP only". -/
  | shSwap
  /-- "DMA_A", "DMA_B", "DMA_C": the channel that writes the port register. -/
  | dmaA | dmaB | dmaC
deriving DecidableEq, Repr

/-- Why a record is refused (30_encoding R100). -/
inductive DecodeError where
  /-- The code is not in the table. -/
  | reservedCode (op : Byte)
  /-- The code is in the table and the operands are not the ones it takes (log 11). -/
  | badOperands (op : Byte)
  /-- The code stands where its "issued by" column forbids it. -/
  | misplaced (op : Byte)
deriving DecidableEq, Repr

/-- The operation code (30_encoding R99). -/
def Instr.code : Instr → Byte
  | .init _ _ _ _ => 0x01#8
  | .writeDraw _ _ => 0x02#8
  | .readDraw _ => 0x03#8
  | .memWrite _ _ => 0x04#8
  | .memRead _ => 0x05#8
  | .showOp => 0x06#8
  | .busy => 0x07#8
  | .swap => 0x08#8
  | .shWaitInFlight => 0x11#8
  | .shSwap => 0x12#8
  | .shWaitGap => 0x13#8
  | .shMask => 0x14#8
  | .shAlignStop => 0x15#8
  | .shArm => 0x16#8
  | .edgeRise => 0x20#8
  | .edgeFall0 => 0x21#8
  | .edgeFall1 => 0x22#8
  | .dmaA => 0x30#8
  | .dmaB => 0x31#8
  | .dmaC => 0x32#8
  | .irqCompletion => 0x40#8
  | .time _ => 0x50#8
  | .portData _ => 0x60#8
  | .portSet _ => 0x61#8
  | .portClear _ => 0x62#8

/-- The agent that takes the step (30_encoding R99, "agent"). A port primitive's agent is the channel that writes the register
(40_waveform_and_lines R121 to R123: "the writing agent g"). -/
def Instr.agent : Instr → Agent
  | .init _ _ _ _ | .writeDraw _ _ | .readDraw _ | .memWrite _ _ | .memRead _ | .showOp | .busy | .swap
  | .shWaitInFlight | .shSwap | .shWaitGap | .shMask | .shAlignStop | .shArm => .host
  | .edgeRise | .edgeFall0 | .edgeFall1 => .tmr
  | .dmaA | .portSet _ => .dmaA
  | .dmaB | .portData _ => .dmaB
  | .dmaC | .portClear _ => .dmaC
  | .irqCompletion => .isr
  | .time _ => .clk

/-- Who may issue the operation (30_encoding R99, "issued by"). -/
def Instr.issuer : Instr → Issuer
  | .init _ _ _ _ | .writeDraw _ _ | .readDraw _ | .memWrite _ _ | .memRead _ | .showOp | .busy => .program
  | .swap => .shSwap
  | .shWaitInFlight | .shSwap | .shWaitGap | .shMask | .shAlignStop | .shArm | .edgeRise | .edgeFall0 | .edgeFall1
  | .dmaA | .dmaB | .dmaC | .irqCompletion | .time _ => .scheduler
  | .portData _ => .dmaB
  | .portSet _ => .dmaA
  | .portClear _ => .dmaC

/-- The operands of an operation, in the order of 30_encoding R99. -/
def Instr.args : Instr → List Operand
  | .init n base size rate => [.nat n, .addr base, .nat size, .nat rate]
  | .writeDraw off val => [.nat off, .byte val]
  | .readDraw off => [.nat off]
  | .memWrite addr val => [.addr addr, .byte val]
  | .memRead addr => [.addr addr]
  | .time d => [.nat d]
  | .portData v | .portSet v | .portClear v => [.byte v]
  | .showOp | .busy | .swap | .shWaitInFlight | .shSwap | .shWaitGap | .shMask | .shAlignStop | .shArm
  | .edgeRise | .edgeFall0 | .edgeFall1 | .dmaA | .dmaB | .dmaC | .irqCompletion => []

/-- The decoder: a record to its operation, or the name of what is wrong. The operation is selected by `op` alone
(30_encoding R98); every code that is not in R99 is reserved (R100). Total on any record. -/
def decode (r : Record) : Except DecodeError Instr :=
  match r.op.toNat with
  | 0x01 => match r.args with
    | [.nat n, .addr base, .nat size, .nat rate] => .ok (.init n base size rate)
    | _ => .error (.badOperands r.op)
  | 0x02 => match r.args with
    | [.nat off, .byte val] => .ok (.writeDraw off val)
    | _ => .error (.badOperands r.op)
  | 0x03 => match r.args with
    | [.nat off] => .ok (.readDraw off)
    | _ => .error (.badOperands r.op)
  | 0x04 => match r.args with
    | [.addr addr, .byte val] => .ok (.memWrite addr val)
    | _ => .error (.badOperands r.op)
  | 0x05 => match r.args with
    | [.addr addr] => .ok (.memRead addr)
    | _ => .error (.badOperands r.op)
  | 0x06 => noOperands r .showOp
  | 0x07 => noOperands r .busy
  | 0x08 => noOperands r .swap
  | 0x11 => noOperands r .shWaitInFlight
  | 0x12 => noOperands r .shSwap
  | 0x13 => noOperands r .shWaitGap
  | 0x14 => noOperands r .shMask
  | 0x15 => noOperands r .shAlignStop
  | 0x16 => noOperands r .shArm
  | 0x20 => noOperands r .edgeRise
  | 0x21 => noOperands r .edgeFall0
  | 0x22 => noOperands r .edgeFall1
  | 0x30 => noOperands r .dmaA
  | 0x31 => noOperands r .dmaB
  | 0x32 => noOperands r .dmaC
  | 0x40 => noOperands r .irqCompletion
  | 0x50 => match r.args with
    | [.nat d] => .ok (.time d)
    | _ => .error (.badOperands r.op)
  | 0x60 => match r.args with
    | [.byte v] => .ok (.portData v)
    | _ => .error (.badOperands r.op)
  | 0x61 => match r.args with
    | [.byte v] => .ok (.portSet v)
    | _ => .error (.badOperands r.op)
  | 0x62 => match r.args with
    | [.byte v] => .ok (.portClear v)
    | _ => .error (.badOperands r.op)
  | _ => .error (.reservedCode r.op)
where
  /-- An operation that takes no operands. -/
  noOperands (r : Record) (i : Instr) : Except DecodeError Instr :=
    match r.args with
    | [] => .ok i
    | _ :: _ => .error (.badOperands r.op)

/-- The decoder with the placement check of 30_encoding R100: a record handed over by `by` is an operation only where the
"issued by" column names `by`. So a program that contains SWAP, a micro-step code or a hardware-event code is refused, and
so is a port primitive issued by anyone but its channel. -/
def accept (issuer : Issuer) (r : Record) : Except DecodeError Instr :=
  match decode r with
  | .ok i => if i.issuer = issuer then .ok i else .error (.misplaced r.op)
  | .error e => .error e

/-- The encoder: the record of an operation (30_encoding R98, R99). -/
def encode (i : Instr) : Record := { op := i.code, args := i.args }

/-- The operands of a code, all zero: the operand shapes of 30_encoding R99. -/
def zeroArgs (op : Byte) : List Operand :=
  match op.toNat with
  | 0x01 => [.nat 0, .addr 0#32, .nat 0, .nat 0]
  | 0x02 => [.nat 0, .byte 0#8]
  | 0x03 => [.nat 0]
  | 0x04 => [.addr 0#32, .byte 0#8]
  | 0x05 => [.addr 0#32]
  | 0x50 => [.nat 0]
  | 0x60 | 0x61 | 0x62 => [.byte 0#8]
  | _ => []

/-- The record whose operation code is the low eight bits of the `nbits` table bits `w`, every operand zero. The table gives a
row the eight bits of its code and no operand bits, because operands are not packed into bits; the decoder selects with mask
0xFF (30_encoding R98). -/
def tableRecord (nbits w : Nat) : Record :=
  let op := BitVec.ofNat 8 (w % 2 ^ nbits)
  { op := op, args := zeroArgs op }

/-- What the decoder reads from an operation whose table bits are `w`; none where it refuses. -/
def decodeTableWord (nbits w : Nat) : Option Instr :=
  match decode (tableRecord nbits w) with
  | .ok i => some i
  | .error _ => none

/-! ## Pseudo-operations (30_encoding R104) -/

/-- `FILL_DRAW b` for a draw half of `len` bytes: WRITE_DRAW k, b for k = 0, 1, …, len − 1, in that order. -/
def expandFillDraw (len : Nat) (b : Byte) : List Instr := (List.range len).map fun k => .writeDraw k b

/-- `PUT_PIXEL i, b0, …, b23`: WRITE_DRAW 24·i + j, bj for j = 0, …, 23, in that order. -/
def expandPutPixel (i : Nat) (bs : Vector Byte 24) : List Instr :=
  (List.range 24).map fun j => .writeDraw (24 * i + j) (bs.toList.getD j 0#8)

/-- `PUT_STRIP_BIT s, k, bit`, where the program text carries `r`, the byte it knows READ_DRAW k reads:
READ_DRAW k, then WRITE_DRAW k, (r & ~(1 << s)) | (bit << s). -/
def expandPutStripBit (s : Fin 8) (k : Nat) (bit : Bool) (r : Byte) : List Instr :=
  [.readDraw k, .writeDraw k ((r &&& ~~~(1#8 <<< s.val)) ||| ((if bit then 1#8 else 0#8) <<< s.val))]

end Sys2Proof
end

