-- ==== Sys2Proof/Config.lean ====
section
/-! DEFINITION. What an implementation fixes (spec 00_scope R9, R10) and the free values (00_scope R13, "draw").
A free value is an opaque constant: nothing can be proved of the value it gives. -/

namespace Sys2Proof

/-! ## Parameters the source fixes (00_scope R9) -/

/-- NLINES. -/
def Config.nLines : Nat := 8
/-- COLOR_CHANNELS. -/
def Config.colorChannels : Nat := 3
/-- BITS_PER_CHANNEL. -/
def Config.bitsPerChannel : Nat := 8
/-- BYTES_PER_PIXEL: 24 bytes per pixel = 3 color channels × 8 bits. -/
abbrev Config.bytesPerPixel : Nat := 24

/-- The two bit rates (00_scope R9 BIT_RATES; 30_encoding R97). -/
inductive Rate where
  | rate800k | rate400k
deriving DecidableEq, Repr, Inhabited

/-- The three phases of the bit cycle (40_waveform_and_lines R110). -/
inductive Phase where
  | tail | hiBoth | hiOne
deriving DecidableEq, Repr, Inhabited

/-- WINDOW_MODE (00_scope R10; 40_waveform_and_lines R114). -/
inductive WindowMode where
  | assumed | strict
deriving DecidableEq, Repr, Inhabited

/-- ALIGN_MODE (00_scope R10; 43_sequencer R175). -/
inductive AlignMode where
  | assumed | any
deriving DecidableEq, Repr, Inhabited

/-! ## Parameters the source leaves open (00_scope R10) -/

/-- The parameters a model takes as arguments (00_scope R10). -/
structure Params where
  /-- RESET_GAP, in microseconds. -/
  resetGap : Nat
  /-- MAX_COUNT, the largest transfer count of a descriptor. -/
  maxCount : Nat
  /-- RATE_CODE: the selector value of RATE_800K. -/
  code800k : Nat
  /-- RATE_CODE: the selector value of RATE_400K. -/
  code400k : Nat
  /-- WINDOW_MODE. -/
  windowMode : WindowMode
  /-- ALIGN_MODE. -/
  alignMode : AlignMode
  /-- T0H_FRAC: the high time of W0 as a fraction of the bit period. -/
  t0h : Frac
  /-- T1H_FRAC: the high time of W1 as a fraction of the bit period. -/
  t1h : Frac
  /-- LINE_PIN[s]: the physical pin of strip s. -/
  linePin : Vector Nat 8
deriving DecidableEq, Repr, Inhabited

/-- The constraint column of 00_scope R10: RESET_GAP ≥ 1, MAX_COUNT ≥ 24, two distinct rate codes,
0 < T0H_FRAC < T1H_FRAC < 1, eight distinct pins. -/
def Params.wf (p : Params) : Bool :=
  decide (1 ≤ p.resetGap) && decide (24 ≤ p.maxCount) && decide (p.code800k ≠ p.code400k) &&
  decide (0 < p.t0h.num) && decide (0 < p.t0h.den) && decide (0 < p.t1h.den) &&
  p.t0h.lt p.t1h && decide (p.t1h.num < p.t1h.den) && decide p.linePin.toList.Nodup

/-- Parameters that meet the constraints: a witness that they can be met. Only `Config.params` uses it. -/
def Params.witness : Params :=
  { resetGap := 1, maxCount := 24, code800k := 0, code400k := 1, windowMode := .assumed, alignMode := .assumed,
    t0h := ⟨1, 3⟩, t1h := ⟨2, 3⟩, linePin := #v[0, 1, 2, 3, 4, 5, 6, 7] }

/-- The implementation's parameters, open (00_scope R10; log 4). -/
opaque Config.openParams : Params

/-- The implementation's parameters: any parameters that meet the constraints of 00_scope R10. -/
def Config.params : Params := if Config.openParams.wf then Config.openParams else Params.witness

/-! ## Free values (00_scope R13; log 5, log 7, log 16) -/

/-- The timer phase INIT leaves (41_buffer_manager R130: draw s.tmr.phase). -/
opaque Config.freePhase : Nat → Phase

/-- An edge flag INIT leaves (41_buffer_manager R130: draw s.ef.rise, s.ef.fall0, s.ef.fall1). -/
opaque Config.freeFlag : Nat → Bool

/-- The source address INIT leaves in a channel that has a constant byte (30_encoding R95: "unused (any)"). -/
opaque Config.freeAddr : Nat → Addr

/-- The agent that steps next, where the run's schedule has not said (00_scope R16), and, if it is CLK, by how much more than
one time unit the time advances (60_exceptions R223). -/
opaque Config.freeTurn : Nat → Agent × Nat

end Sys2Proof
end

