-- ==== Sys2Proof/Machine/State.lean ====
section
/-! DEFINITION. The state of the block (spec 10_state R30 to R56), as plain data, and its value at power-on.
The last four fields are the model's own: the parameters it was given and the run's inputs. -/

namespace Sys2Proof.Machine

/-- Bytes by address, in one canonical form (`Memory.wf`, Machine/Ops.lean): addresses strictly rising and below 2^32, and no
entry equal to what an unlisted address reads as. -/
abbrev Memory := List Host.Cell

/-- What an unlisted address reads as. DESIGN CHOICE (log 9): the spec gives memory no power-on value (10_state R56: draw), and
no operation can observe one, because INIT zero-fills the block and every access outside it faults. -/
def unlistedByte : Byte := 0x00#8

/-- The configuration INIT writes (10_state R32). -/
structure Cfg where
  /-- `cfg.N`, pixels per strip. -/
  n : Nat
  /-- `cfg.L` = 24 × N, bytes of one half and transfer count of every channel. -/
  len : Nat
  /-- `cfg.base`, first byte of the block. -/
  base : Addr
  /-- `cfg.size`, bytes in the caller's block. -/
  size : Nat
  /-- `cfg.rate`. -/
  rate : Rate
deriving DecidableEq, Repr

/-- The output port (10_state R38, R41). PORT_SET and PORT_CLEAR hold no state (R39, R40). -/
structure Port where
  data : Byte
  oe : Byte
deriving DecidableEq, Repr

/-- The timing generator (10_state R43, R44). -/
structure Timer where
  run : Bool
  rate : Rate
  phase : Phase
deriving DecidableEq, Repr

/-- EDGE_FLAGS (10_state R46). -/
structure EdgeFlags where
  rise : Bool
  fall0 : Bool
  fall1 : Bool
deriving DecidableEq, Repr

/-- The port registers a transfer writes (10_state R48 `dst`). -/
inductive PortReg where
  | set | data | clear
deriving DecidableEq, Repr

/-- The edges of the bit cycle: a channel's trigger (10_state R48 `trig`), and the edge F_WINDOW records. -/
inductive Edge where
  | rise | fall0 | fall1
deriving DecidableEq, Repr

/-- The three DMA channels. -/
inductive Chan where
  | a | b | c
deriving DecidableEq, Repr

/-- A channel's descriptor (10_state R48). -/
structure Channel where
  /-- Address of the next source byte. -/
  src : Addr
  /-- Constant source byte, where the channel has one. -/
  konst : Option Byte
  /-- Added to `src` after each transfer (signed, modulo 2^32). -/
  soff : Addr
  /-- The back-offset, added to `src` at completion (signed, modulo 2^32). -/
  slast : Addr
  /-- Port register written by each transfer. -/
  dst : PortReg
  /-- Transfers left in the frame. -/
  citer : Nat
  /-- Transfer count per frame. -/
  biter : Nat
  /-- Disable on completion. -/
  dreq : Bool
  /-- Raise the completion interrupt at completion. -/
  intmaj : Bool
  /-- The frame's last transfer happened. -/
  done : Bool
  /-- The edge flag that triggers the channel. -/
  trig : Edge
  /-- Armed (10_state R47, DMA_ERQ). -/
  erq : Bool
deriving DecidableEq, Repr

/-- The completion interrupt's pending and enable bits (10_state R50). -/
structure Irq where
  pend : Bool
  en : Bool
deriving DecidableEq, Repr

/-- HOST's position inside SHOW (10_state R52). -/
inductive HostPhase where
  | ready | shWaitInFlight | shSwap | shWaitGap | shMask | shAlignStop | shArm
deriving DecidableEq, Repr

/-- The Transmission State, derived from the state by `State.txState` (10_state R34). -/
inductive TxState where
  | idle | inFlight | resetGap
deriving DecidableEq, Repr

/-- The fault codes (60_exceptions R211). -/
inductive FaultCode where
  | badConfig | badSize | zeroLength | countLimit | notInit | reinit | range | frontWrite | reentry | window
deriving DecidableEq, Repr

/-- What a fault record holds besides its code, agent, operation and time (60_exceptions R211, "info recorded"). -/
inductive FaultInfo where
  | none
  /-- F_BAD_CONFIG: the rate value. -/
  | rate (value : Nat)
  /-- F_BAD_SIZE, block too small: the size. -/
  | size (bytes : Nat)
  /-- F_BAD_SIZE, block wraps: the base. -/
  | base (a : Addr)
  /-- F_COUNT_LIMIT: N. -/
  | pixels (n : Nat)
  /-- F_RANGE: the offset. -/
  | offset (off : Nat)
  /-- F_RANGE: the address. -/
  | addr (a : Addr)
  /-- F_FRONT_WRITE: the address and TS at the write. -/
  | addrTx (a : Addr) (ts : TxState)
  /-- F_WINDOW: the edge. -/
  | edge (e : Edge)
deriving DecidableEq, Repr

/-- A recorded fault ⟨code, info, agent, op, now⟩ (60_exceptions R210). -/
structure FaultRecord where
  code : FaultCode
  info : FaultInfo
  agent : Agent
  op : Byte
  time : Nat
deriving DecidableEq, Repr

/-- An observation event (00_scope R18). -/
inductive Event where
  /-- A port-register write: agent, register, value, the line levels after the write. -/
  | port (g : Agent) (reg : PortReg) (v : Byte) (lines : Byte)
  /-- The result of BUSY. -/
  | busy (result : Bool)
  /-- A byte read by READ_DRAW or MEM_READ. -/
  | read (a : Addr) (v : Byte)
  /-- The completion handler ran. -/
  | irq (now : Nat)
deriving DecidableEq, Repr

/-- One decision of the scheduler (00_scope R16; 30_encoding R98; log 5). -/
inductive Turn where
  /-- Agent `a` takes its own next step; if `a` is CLK, time advances by `extra + 1`. -/
  | agent (a : Agent) (extra : Nat)
  /-- The operation `r` is taken, handed over by `issuer`. -/
  | issue (issuer : Issuer) (r : Record)
deriving DecidableEq, Repr

/-- The state of the block and of the model around it. -/
structure State where
  /-- The model's own: the parameters of 00_scope R10, fixed for the whole run; no step writes them (log 4). -/
  params : Params
  /-- INIT has completed (10_state R32). -/
  initialized : Bool
  /-- `cfg`: "none" until INIT (10_state R32, R56). -/
  cfg : Option Cfg
  /-- Base of the front half (10_state R33). -/
  front : Addr
  /-- Base of the draw half (10_state R33). -/
  draw : Addr
  /-- The bytes of the pixel-bit block (20_memory R71). -/
  mem : Memory
  /-- The transmission-in-progress flag (10_state R35). -/
  inFlight : Bool
  /-- The completion timestamp (10_state R36). -/
  completedAt : Option Nat
  /-- The current time in microseconds (10_state R37). -/
  now : Nat
  /-- The output port (10_state R38 to R42). -/
  port : Port
  /-- The timing generator (10_state R43, R44). -/
  tmr : Timer
  /-- EDGE_FLAGS (10_state R46). -/
  ef : EdgeFlags
  /-- `s.ch[A]` (10_state R48). -/
  chA : Channel
  /-- `s.ch[B]` (10_state R48). -/
  chB : Channel
  /-- `s.ch[C]` (10_state R48). -/
  chC : Channel
  /-- The completion interrupt (10_state R50). -/
  irq : Irq
  /-- The global interrupt mask (10_state R51). -/
  imask : Bool
  /-- HOST's position inside SHOW (10_state R52). -/
  hostPhase : HostPhase
  /-- The recorded faults (10_state R53). -/
  faults : List FaultRecord
  /-- The refusal mark (10_state R53). -/
  refused : Bool
  /-- The observation events, oldest first (10_state R54). -/
  trace : List Event
  /-- The model's own: HOST's operations not yet issued, in program order (30_encoding R98; log 6). -/
  program : List Record
  /-- The model's own: the scheduler's decisions not yet taken, oldest first (log 5). -/
  turns : List Turn
  /-- The model's own: how many free values have been taken (log 7). -/
  draws : Nat
deriving DecidableEq, Repr

/-- Why the machine stops. -/
inductive Fault where
  /-- Raised by every operation, and by `step`, in a state whose `faults` is not empty: the run has halted and no agent has an
  enabled step (60_exceptions R210). The step that raised the fault was itself a next state, with the fault recorded. Safe. -/
  | halted (code : FaultCode)
deriving DecidableEq, Repr

/-- Why the machine gives no meaning. -/
inductive Refusal where
  /-- Raised by `exec` for an operation that has no meaning in this model. Safe. No operation of the table is left so. -/
  | notModelled (mnemonic : String)
  /-- Raised by every operation, and by `step`, in a state whose refusal mark is set: the run has halted and no agent has an
  enabled step (60_exceptions R212). The step that was refused was itself a next state, with the mark set. Safe. -/
  | halted
deriving DecidableEq, Repr

/-- A descriptor at power-on: disarmed (10_state R56); every other field is a draw, held here at a named value
(DESIGN CHOICE, log 8). -/
def Channel.powerOn : Channel :=
  { src := 0#32, konst := none, soff := 0#32, slast := 0#32, dst := .data, citer := 0, biter := 0, dreq := false,
    intmaj := false, done := false, trig := .rise, erq := false }

/-- The state at power-on (10_state R56, 70_reset_and_hazards R240). The values the spec leaves as draws are named values
(DESIGN CHOICE, log 8, log 9); the parameters are open, and the two modes have their decided defaults (log 4). -/
def State.reset : State :=
  { params := { Config.params with windowMode := .assumed, alignMode := .assumed }
    initialized := false
    cfg := none
    front := 0#32
    draw := 0#32
    mem := []
    inFlight := false
    completedAt := none
    now := 0
    port := { data := 0x00#8, oe := 0x00#8 }
    tmr := { run := false, rate := .rate800k, phase := .tail }
    ef := { rise := false, fall0 := false, fall1 := false }
    chA := Channel.powerOn
    chB := Channel.powerOn
    chC := Channel.powerOn
    irq := { pend := false, en := false }
    imask := false
    hostPhase := .ready
    faults := []
    refused := false
    trace := []
    program := []
    turns := []
    draws := 0 }

end Sys2Proof.Machine
end

