-- ==== Sys2Proof/Machine/Ops.lean ====
section
/-! DEFINITION. The named operations over memory, registers, faults and the interrupt (spec 20_memory R73 to R75,
40_waveform_and_lines R121 to R123, 60_exceptions R210 to R217). -/

namespace Sys2Proof.Machine

/-! ## Ending a step -/

/-- No fault is recorded and nothing was refused: the run has not halted (60_exceptions R210, R212). -/
def State.running (s : State) : Bool := s.faults.isEmpty && !s.refused

/-- How a step that leaves `t` ends in a block in state `s`. In a run that has halted no agent has an enabled step
(60_exceptions R210, R212; log 2): the machine stops, naming the first recorded fault, or the refusal. -/
def settle (s t : State) : Host.Outcome State Fault Refusal :=
  match s.faults with
  | f :: _ => .fault (.halted f.code)
  | [] => if s.refused then .refused .halted else .next t

/-- The numeric fault code (60_exceptions R211). -/
def FaultCode.number : FaultCode → Nat
  | .badConfig => 1
  | .badSize => 2
  | .zeroLength => 3
  | .countLimit => 4
  | .notInit => 5
  | .reinit => 6
  | .range => 7
  | .frontWrite => 8
  | .reentry => 9
  | .window => 10

/-- Raising a fault in the step of operation `i`, which began in `s` (60_exceptions R210; log 3): the record is appended, and every
other write of the step is discarded. This is the one exception entry of the block; the run then halts (`settle`). -/
def raise (s : State) (i : Instr) (code : FaultCode) (info : FaultInfo) : State :=
  { s with faults := s.faults ++ [{ code, info, agent := i.agent, op := i.code, time := s.now }] }

/-- Refusing a step (60_exceptions R212; log 3): the mark is set, and every other write is discarded. -/
def refuse (s : State) : State := { s with refused := true }

/-- A step that is not enabled before INIT, where only HOST's next operation and TIME are (70_reset_and_hazards R241); held, it
leaves the state (log 1). -/
def onceInit (s t : State) : State := if s.initialized then t else s

/-! ## Memory -/

/-- The list with an entry for `a`, unless `v` is what an unlisted address reads as. -/
def Memory.cell (a : Nat) (v : Byte) (m : Memory) : Memory := if v = unlistedByte then m else (a, v) :: m

/-- The byte at address `a`. -/
def Memory.read : Memory → Nat → Byte
  | [], _ => unlistedByte
  | c :: m, a => if c.1 = a then c.2 else Memory.read m a

/-- Memory with byte `v` at address `a`, in canonical form. -/
def Memory.write : Memory → Nat → Byte → Memory
  | [], a, v => Memory.cell a v []
  | c :: m, a, v =>
    if a < c.1 then Memory.cell a v (c :: m)
    else if a = c.1 then Memory.cell a v m
    else c :: Memory.write m a v

/-- Memory with every byte of `[lo, hi)` at what an unlisted address reads as, 0x00 (41_buffer_manager R130, zero fill). -/
def Memory.zeroFill (m : Memory) (lo hi : Nat) : Memory := m.filter fun c => !(decide (lo ≤ c.1) && decide (c.1 < hi))

/-- The canonical form: addresses strictly rising and below 2^32, and no entry equal to what an unlisted address reads as. -/
def Memory.wf : Memory → Bool
  | [] => true
  | c :: m => decide (c.2 ≠ unlistedByte) && decide (c.1 < 2 ^ 32) && m.all (fun d => decide (c.1 < d.1)) && Memory.wf m

/-- `cfg.base`, and 0 before INIT. -/
def State.base (s : State) : Addr :=
  match s.cfg with
  | some c => c.base
  | none => 0#32

/-- `L = cfg.L`, the bytes of one half, and 0 before INIT, when there is no block (log 10). -/
def State.len (s : State) : Nat :=
  match s.cfg with
  | some c => c.len
  | none => 0

/-- `cfg.base ≤ a < cfg.base + 2L`, in ℕ (20_memory R71, R74; 30_encoding R105: cfg.base + 2L is exact in ℕ). -/
def State.inBlock (s : State) (a : Addr) : Bool :=
  decide (s.base.toNat ≤ a.toNat) && decide (a.toNat < s.base.toNat + 2 * s.len)

/-- `MemRead(a, 1)` (20_memory R74): the byte, or none where the rule raises F_RANGE(a). -/
def State.memRead (s : State) (a : Addr) : Option Byte :=
  if s.inBlock a then some (Memory.read s.mem a.toNat) else none

/-- `MemWrite(a, 1, v)` in the step of `i` (20_memory R75). -/
def State.memWrite (s : State) (i : Instr) (a : Addr) (v : Byte) : State :=
  if s.inBlock a then { s with mem := Memory.write s.mem a.toNat v } else raise s i .range (.addr a)

/-! ## Trace and port -/

/-- `emit(e)` (00_scope R13, R18). -/
def State.emit (s : State) (e : Event) : State := { s with trace := s.trace ++ [e] }

/-- The data register after a write of `v` to `reg` (40_waveform_and_lines R121 to R123): SET ORs, CLEAR AND-NOTs. -/
def portAfter (data : Byte) (reg : PortReg) (v : Byte) : Byte :=
  match reg with
  | .data => v
  | .set => data ||| v
  | .clear => data &&& ~~~v

/-- `PortWrite(reg, v)` by agent `g` (40_waveform_and_lines R121 to R123): the data register changes and the write is an event
of the trace. -/
def State.portWrite (s : State) (g : Agent) (reg : PortReg) (v : Byte) : State :=
  State.emit { s with port := { s.port with data := portAfter s.port.data reg v } }
    (.port g reg v (portAfter s.port.data reg v))

/-- What a read of a port register gives (10_state R38 to R40): the data register's byte, and 0x00 for the write-only set and
clear registers. No operation of the block reads one (40_waveform_and_lines R124). -/
def State.portRead (s : State) : PortReg → Byte
  | .data => s.port.data
  | .set => 0x00#8
  | .clear => 0x00#8

/-! ## Channels -/

/-- `s.ch[x]` (10_state R48). -/
def State.ch (s : State) : Chan → Channel
  | .a => s.chA
  | .b => s.chB
  | .c => s.chC

/-- The state with descriptor `c` for channel `x`. -/
def State.setCh (s : State) (x : Chan) (c : Channel) : State :=
  match x with
  | .a => { s with chA := c }
  | .b => { s with chB := c }
  | .c => { s with chC := c }

/-- The agent of channel `x`. -/
def Chan.agent : Chan → Agent
  | .a => .dmaA
  | .b => .dmaB
  | .c => .dmaC

/-! ## The completion interrupt -/

/-- The interrupt may be taken: pending, enabled and not masked (60_exceptions R216). -/
def State.irqReady (s : State) : Bool := s.irq.pend && s.irq.en && !s.imask

/-- Entry to the completion handler (60_exceptions R216; 44_completion R190, first write): the pending bit is acknowledged.
There is no program counter, status or mode to save, no vector, and the mask does not change. -/
def State.irqEnter (s : State) : State := { s with irq := { s.irq with pend := false } }

/-- Return from the handler (60_exceptions R217): it restores nothing and re-enables nothing. -/
def State.irqReturn (s : State) : State := s

end Sys2Proof.Machine
end

