-- ==== Sys2Proof/Machine/Operands.lean ====
section
/-! DEFINITION. Operand forms: the rate selector, draw-relative and absolute addresses, the regions they fall in, and the
pixel-bit format (spec 30_encoding R90 to R97, 41_buffer_manager R133). -/

namespace Sys2Proof.Machine

/-- The rate a selector value names, or none where INIT raises F_BAD_CONFIG (30_encoding R97). -/
def rateOf (p : Params) (value : Nat) : Option Rate :=
  if value = p.code800k then some .rate800k
  else if value = p.code400k then some .rate400k
  else none

/-- `s.draw + off` (41_buffer_manager R140, R141), modulo 2^32 (00_scope R12). -/
def State.drawAddr (s : State) (off : Nat) : Addr := s.draw + BitVec.ofNat 32 off

/-- `s.front ≤ a < s.front + L`, in ℕ (41_buffer_manager R133; log 12). -/
def State.inFront (s : State) (a : Addr) : Bool :=
  decide (s.front.toNat ≤ a.toNat) && decide (a.toNat < s.front.toNat + s.len)

/-- `s.draw ≤ a < s.draw + L`, in ℕ (41_buffer_manager R133; log 12). -/
def State.inDraw (s : State) (a : Addr) : Bool :=
  decide (s.draw.toNat ≤ a.toNat) && decide (a.toNat < s.draw.toNat + s.len)

/-- The back-offset −L as a signed 32-bit value: the bit pattern 2^32 − L (30_encoding R96). -/
def backOffset (len : Nat) : Addr := -BitVec.ofNat 32 len

/-! ## The pixel-bit format -/

/-- Strip `s`'s data bit in a pixel-bit byte: bit s (30_encoding R91). -/
def stripBit (b : Byte) (s : Fin 8) : Bool := b.getLsbD s.val

/-- The byte for one bit-time: the sum over the strips of bit_s << s (30_encoding R94). -/
def packLanes (bits : Vector Bool 8) : Byte :=
  (List.finRange 8).foldl (fun b s => b ||| ((if bits[s] then 1#8 else 0#8) <<< s.val)) 0x00#8

/-- The strips' bits of one byte (30_encoding R94, the converse). -/
def unpackLanes (b : Byte) : Vector Bool 8 := Vector.ofFn (stripBit b)

/-- The bit-time of position `pos` of pixel `i`: pixel i occupies bit-times 24i to 24i + 23 (30_encoding R92). -/
def bitTime (i : Nat) (pos : Fin 24) : Nat := 24 * i + pos.val

/-- The address channel B reads in bit-time `k` of a frame whose front half begins at `front` (30_encoding R92,
42_transmit_pipeline R160). -/
def bitTimeAddr (front : Addr) (k : Nat) : Addr := front + BitVec.ofNat 32 k

end Sys2Proof.Machine
end

