-- ==== Sys2Proof/Machine/Flags.lean ====
section
/-! DEFINITION. The flags and the derived status of the block: edge flags, the service window, the reset gap, the Transmission
State, the waveform and line levels (spec 10_state R34, R42 to R46; 40_waveform_and_lines R111 to R114; 42 R151). -/

namespace Sys2Proof.Machine

/-! ## Edge flags -/

/-- `flag(s, e)` (40_waveform_and_lines R114). -/
def State.flag (s : State) : Edge → Bool
  | .rise => s.ef.rise
  | .fall0 => s.ef.fall0
  | .fall1 => s.ef.fall1

/-- The state with edge flag `e` at `v`. -/
def State.putFlag (s : State) (e : Edge) (v : Bool) : State :=
  match e with
  | .rise => { s with ef := { s.ef with rise := v } }
  | .fall0 => { s with ef := { s.ef with fall0 := v } }
  | .fall1 => { s with ef := { s.ef with fall1 := v } }

/-- `clearFlag(s, e)` (42_transmit_pipeline R152). -/
def State.clearFlag (s : State) (e : Edge) : State := s.putFlag e false

/-- EDGE_FLAGS as a register: bit 0 rise, bit 1 fall0, bit 2 fall1 (10_state R46; the positions are the spec's labels). -/
def State.edgeFlags (s : State) : BitVec 3 := BitVec.ofBool s.ef.fall1 ++ BitVec.ofBool s.ef.fall0 ++ BitVec.ofBool s.ef.rise

/-- DMA_ERQ as a register: bit 0 channel A, bit 1 channel B, bit 2 channel C (10_state R47). -/
def State.dmaErq (s : State) : BitVec 3 := BitVec.ofBool s.chC.erq ++ BitVec.ofBool s.chB.erq ++ BitVec.ofBool s.chA.erq

/-- Channel `x` has an enabled transfer: armed, and its trigger flag is set (42_transmit_pipeline R151). -/
def State.dmaReady (s : State) (x : Chan) : Bool := (s.ch x).erq && s.flag (s.ch x).trig

/-- `windowOK(s)`: no armed channel has a request waiting (40_waveform_and_lines R114). -/
def State.windowOK (s : State) : Bool := !s.dmaReady .a && !s.dmaReady .b && !s.dmaReady .c

/-! ## The bit cycle -/

/-- The phase an edge leaves (40_waveform_and_lines R110). -/
def Edge.source : Edge → Phase
  | .rise => .tail
  | .fall0 => .hiBoth
  | .fall1 => .hiOne

/-- The phase an edge enters (40_waveform_and_lines R110). -/
def Edge.target : Edge → Phase
  | .rise => .hiBoth
  | .fall0 => .hiOne
  | .fall1 => .tail

/-- The level of W0, the "0"-bit wave (40_waveform_and_lines R111). -/
def levelW0 : Phase → Bool
  | .hiBoth => true
  | .hiOne => false
  | .tail => false

/-- The level of W1, the "1"-bit wave (40_waveform_and_lines R111). -/
def levelW1 : Phase → Bool
  | .hiBoth => true
  | .hiOne => true
  | .tail => false

/-- The phases in which SH_ALIGN_STOP may stop the timer: AlignSet (43_sequencer R175). -/
def alignAdmits : AlignMode → Phase → Bool
  | .assumed, .tail => true
  | .assumed, .hiBoth => false
  | .assumed, .hiOne => false
  | .any, _ => true

/-! ## Transmission state -/

/-- `completedAt = some t ∧ now − t < RESET_GAP` (10_state R34; 43_sequencer R173; 44_completion R192). The subtraction is on ℕ;
now ≥ t in every state a run reaches (10_state R34; log 14). -/
def State.gapRunning (s : State) : Bool :=
  match s.completedAt with
  | some t => decide (s.now - t < s.params.resetGap)
  | none => false

/-- `TS(s)` (10_state R34). -/
def State.txState (s : State) : TxState :=
  if s.inFlight then .inFlight else if s.gapRunning then .resetGap else .idle

/-- What BUSY answers (44_completion R192). -/
def State.busyNow (s : State) : Bool := s.inFlight || s.gapRunning

/-! ## Lines -/

/-- The level of strip `i`'s line: bit i of the port where its output is driven; where it is not, the level is unspecified and
the model gives it no value (10_state R42; log 13). -/
def State.lineLevel (s : State) (i : Fin 8) : Option Bool :=
  if s.port.oe.getLsbD i.val then some (s.port.data.getLsbD i.val) else none

/-- The physical pin of strip `i`: LINE_PIN[i], an open parameter (40_waveform_and_lines R119). -/
def State.pinOf (s : State) (i : Fin 8) : Nat := s.params.linePin[i]

end Sys2Proof.Machine
end

