-- ==== Sys2Proof/Machine/Buffer.lean ====
section
/-! DEFINITION. The buffer manager and the caller's data operations: INIT, SWAP, WRITE_DRAW, READ_DRAW, MEM_WRITE, MEM_READ
(spec 41_buffer_manager R130 to R144). Every HOST operation here is held while SHOW is in progress (00_scope R17). -/

namespace Sys2Proof.Machine

/-- The step of a HOST operation, enabled when `s.hostPhase = READY`; held, it leaves the state (00_scope R17; log 1). -/
def hostStep (s t : State) : State := if s.hostPhase = .ready then t else s

/-- A HOST operation other than INIT faults before INIT (60_exceptions R211, F_NOT_INIT). -/
def afterInit (s : State) (i : Instr) (t : State) : State := if s.initialized then t else raise s i .notInit .none

/-- The descriptor INIT programs for channel `x`, with source address `src` (30_encoding R95). -/
def descriptor (x : Chan) (len : Nat) (src : Addr) : Channel :=
  match x with
  | .a => { src := src, konst := some 0xFF#8, soff := 0#32, slast := 0#32, dst := .set, citer := len, biter := len,
            dreq := true, intmaj := false, done := false, trig := .rise, erq := false }
  | .b => { src := src, konst := none, soff := 1#32, slast := backOffset len, dst := .data, citer := len, biter := len,
            dreq := true, intmaj := false, done := false, trig := .fall0, erq := false }
  | .c => { src := src, konst := some 0xFF#8, soff := 0#32, slast := 0#32, dst := .clear, citer := len, biter := len,
            dreq := true, intmaj := true, done := false, trig := .fall1, erq := false }

/-- What INIT writes once its checks have passed (41_buffer_manager R130). The timer phase and the three edge flags are draws,
taken as free values (log 7), and so are the unused sources of channels A and C, which may be any (30_encoding R95; log 16).
INIT does not change `s.now`, and its port write emits no event (90_conflicts C13). -/
def initEffect (s : State) (n : Nat) (base : Addr) (size : Nat) (rate : Rate) : State :=
  let len := Config.bytesPerPixel * n
  { s with
    initialized := true
    cfg := some { n := n, len := len, base := base, size := size, rate := rate }
    front := base
    draw := base + BitVec.ofNat 32 len
    mem := Memory.zeroFill s.mem base.toNat (base.toNat + 2 * len)
    port := { data := 0x00#8, oe := 0xFF#8 }
    tmr := { run := true, rate := rate, phase := Config.freePhase s.draws }
    ef := { rise := Config.freeFlag (s.draws + 1), fall0 := Config.freeFlag (s.draws + 2),
            fall1 := Config.freeFlag (s.draws + 3) }
    chA := descriptor .a len (Config.freeAddr (s.draws + 4))
    chB := descriptor .b len base
    chC := descriptor .c len (Config.freeAddr (s.draws + 5))
    irq := { pend := false, en := true }
    imask := false
    inFlight := false
    completedAt := none
    draws := s.draws + 6 }

/-- INIT's checks, in the order of 41_buffer_manager R130 and 60_exceptions R219; the first that applies is raised. -/
def initChecked (s : State) (n : Nat) (base : Addr) (size : Nat) (rate : Nat) : State :=
  let i := Instr.init n base size rate
  if s.initialized then raise s i .reinit .none
  else
    match rateOf s.params rate with
    | none => raise s i .badConfig (.rate rate)
    | some r =>
      if n = 0 then raise s i .zeroLength .none
      else if s.params.maxCount < Config.bytesPerPixel * n then raise s i .countLimit (.pixels n)
      else if size < 2 * (Config.bytesPerPixel * n) then raise s i .badSize (.size size)
      else if 2 ^ 32 < base.toNat + 2 * (Config.bytesPerPixel * n) then raise s i .badSize (.base base)
      else initEffect s n base size r

/-- INIT (41_buffer_manager R130). -/
def execInit (n : Nat) (base : Addr) (size : Nat) (rate : Nat) (s : State) : Host.Outcome State Fault Refusal :=
  settle s (hostStep s (initChecked s n base size rate))

/-- The exchange of the two roles; no byte is copied (41_buffer_manager R131, R132). -/
def swapEffect (s : State) : State := { s with front := s.draw, draw := s.front }

/-- SWAP (41_buffer_manager R131; log 15); not enabled before INIT (70_reset_and_hazards R241). -/
def execSwap (s : State) : Host.Outcome State Fault Refusal := settle s (onceInit s (swapEffect s))

/-- WRITE_DRAW (41_buffer_manager R140). -/
def execWriteDraw (off : Nat) (val : Byte) (s : State) : Host.Outcome State Fault Refusal :=
  let i := Instr.writeDraw off val
  settle s (hostStep s (afterInit s i
    (if s.len ≤ off then raise s i .range (.offset off)
     else s.memWrite i (s.drawAddr off) val)))

/-- The read of address `a` in the step of `i`: MemRead, then `ReadEv(a, r)` (41_buffer_manager R141, R143). -/
def readEffect (s : State) (i : Instr) (a : Addr) : State :=
  match s.memRead a with
  | some r => s.emit (.read a r)
  | none => raise s i .range (.addr a)

/-- READ_DRAW (41_buffer_manager R141). The byte returned to HOST is the one the event records. -/
def execReadDraw (off : Nat) (s : State) : Host.Outcome State Fault Refusal :=
  let i := Instr.readDraw off
  settle s (hostStep s (afterInit s i
    (if s.len ≤ off then raise s i .range (.offset off)
     else readEffect s i (s.drawAddr off))))

/-- MEM_WRITE (41_buffer_manager R142). A write to the front half faults in every transmission state. -/
def execMemWrite (addr : Addr) (val : Byte) (s : State) : Host.Outcome State Fault Refusal :=
  let i := Instr.memWrite addr val
  settle s (hostStep s (afterInit s i
    (if !s.inBlock addr then raise s i .range (.addr addr)
     else if s.inFront addr then raise s i .frontWrite (.addrTx addr s.txState)
     else s.memWrite i addr val)))

/-- MEM_READ (41_buffer_manager R143). The byte returned to HOST is the one the event records. -/
def execMemRead (addr : Addr) (s : State) : Host.Outcome State Fault Refusal :=
  let i := Instr.memRead addr
  settle s (hostStep s (afterInit s i (readEffect s i addr)))

end Sys2Proof.Machine
end

