-- ==== Sys2Proof/Machine/Completion.lean ====
section
/-! DEFINITION. The completion handler, the busy query and the passage of time: IRQ_COMPLETION, BUSY, TIME (spec 44_completion
R190, R192; 60_exceptions R216, R217, R223). -/

namespace Sys2Proof.Machine

/-- The handler's body between entry and return (44_completion R190): timestamp, InFlight to ResetGap, `IrqEv(now)`. -/
def handlerBody (s : State) : State :=
  State.emit { s with completedAt := some s.now, inFlight := false } (.irq s.now)

/-- IRQ_COMPLETION (44_completion R190; 60_exceptions R216, R217): one atomic step, enabled when the interrupt is pending,
enabled and not masked; held, it leaves the state (log 1). -/
def execIrqCompletion (s : State) : Host.Outcome State Fault Refusal :=
  settle s (if s.irqReady then (handlerBody s.irqEnter).irqReturn else s)

/-- BUSY (44_completion R192). The boolean returned to HOST is the one the event records. -/
def execBusy (s : State) : Host.Outcome State Fault Refusal :=
  settle s (hostStep s (afterInit s .busy (s.emit (.busy s.busyNow))))

/-- TIME (60_exceptions R223). A step with d = 0 is refused (30_encoding R102, 60_exceptions R212). -/
def execTime (d : Nat) (s : State) : Host.Outcome State Fault Refusal :=
  settle s (if d = 0 then refuse s else { s with now := s.now + d })

end Sys2Proof.Machine
end

