-- ==== Sys2Proof/Machine/Pipeline.lean ====
section
/-! DEFINITION. The transmit pipeline: the transfer steps of DMA channels A, B and C and their completion (spec
42_transmit_pipeline R151 to R158). -/

namespace Sys2Proof.Machine

/-- The byte channel `x` moves: its constant, or the byte at its source, where MemRead may raise F_RANGE (42 R152). -/
def State.sourceByte (s : State) (x : Chan) : Option Byte :=
  match (s.ch x).konst with
  | some c => some c
  | none => s.memRead (s.ch x).src

/-- The descriptor after one transfer, before completion: source advanced modulo 2^32, one transfer fewer (42 R152). -/
def Channel.advance (c : Channel) : Channel := { c with src := c.src + c.soff, citer := c.citer - 1 }

/-- The descriptor at major completion: back-offset, reload, `done`, and disarmed if `dreq` (42 R156, R157). -/
def Channel.complete (c : Channel) : Channel :=
  { c with src := c.src + c.slast, citer := c.biter, done := true, erq := c.erq && !c.dreq }

/-- `Complete(x)` (42 R156): the descriptor completes, and the interrupt becomes pending if `intmaj` (R158). -/
def completeChannel (s : State) (x : Chan) : State :=
  let t := s.setCh x (s.ch x).complete
  if (s.ch x).intmaj then { t with irq := { t.irq with pend := true } } else t

/-- `Xfer(x)` in the step of `i` (42 R152): port write by DMA_x, the served request is consumed, the descriptor advances, and
it completes when its count reaches 0. If MemRead raises F_RANGE the transfer has no other effect. -/
def xfer (s : State) (i : Instr) (x : Chan) : State :=
  match s.sourceByte x with
  | none => raise s i .range (.addr (s.ch x).src)
  | some v =>
    let t := ((s.portWrite x.agent (s.ch x).dst v).clearFlag (s.ch x).trig).setCh x (s.ch x).advance
    if (s.ch x).advance.citer = 0 then completeChannel t x else t

/-- A channel's step: its transfer where it is enabled; held, it leaves the state (42 R151; log 1). -/
def dmaEffect (s : State) (i : Instr) (x : Chan) : State := if s.dmaReady x then xfer s i x else s

/-- DMA_A (42_transmit_pipeline R153). -/
def execDmaA (s : State) : Host.Outcome State Fault Refusal := settle s (dmaEffect s .dmaA .a)

/-- DMA_B (42_transmit_pipeline R154). -/
def execDmaB (s : State) : Host.Outcome State Fault Refusal := settle s (dmaEffect s .dmaB .b)

/-- DMA_C (42_transmit_pipeline R155). -/
def execDmaC (s : State) : Host.Outcome State Fault Refusal := settle s (dmaEffect s .dmaC .c)

end Sys2Proof.Machine
end

