-- ==== Sys2Proof/Machine/Sequencer.lean ====
section
/-! DEFINITION. The sequencer: SHOW and its six micro-steps (spec 43_sequencer R170 to R176). A micro-step that is not the one
`s.hostPhase` names, or whose wait has not ended, is held and leaves the state (log 1). -/

namespace Sys2Proof.Machine

/-- SHOW's issue step (43_sequencer R170): F_REENTRY, then F_NOT_INIT, in that order. -/
def showEffect (s : State) : State :=
  if s.hostPhase ≠ .ready then raise s .showOp .reentry .none
  else afterInit s .showOp { s with hostPhase := .shWaitInFlight }

/-- SHOW (43_sequencer R170). -/
def execShow (s : State) : Host.Outcome State Fault Refusal := settle s (showEffect s)

/-- A micro-step of SHOW: taken when `s.hostPhase = p` and its wait has ended (43_sequencer R171 to R176). -/
def microStep (s : State) (p : HostPhase) (ready : Bool) (t : State) : State :=
  if decide (s.hostPhase = p) && ready then t else s

/-- SH_WAIT_INFLIGHT (43_sequencer R171): holds while a frame is in flight. -/
def execShWaitInFlight (s : State) : Host.Outcome State Fault Refusal :=
  settle s (microStep s .shWaitInFlight (!s.inFlight) { s with hostPhase := .shSwap })

/-- SH_SWAP's effect (43_sequencer R172): SWAP, channel B's source at the new front half. -/
def shSwapEffect (s : State) : State :=
  let t := swapEffect s
  { t with chB := { t.chB with src := t.front }, hostPhase := .shWaitGap }

/-- SH_SWAP (43_sequencer R172). -/
def execShSwap (s : State) : Host.Outcome State Fault Refusal := settle s (microStep s .shSwap true (shSwapEffect s))

/-- SH_WAIT_GAP (43_sequencer R173): holds while the reset gap runs. -/
def execShWaitGap (s : State) : Host.Outcome State Fault Refusal :=
  settle s (microStep s .shWaitGap (!s.gapRunning) { s with hostPhase := .shMask })

/-- SH_MASK (43_sequencer R174): the critical section begins. -/
def execShMask (s : State) : Host.Outcome State Fault Refusal :=
  settle s (microStep s .shMask true { s with imask := true, hostPhase := .shAlignStop })

/-- SH_ALIGN_STOP (43_sequencer R175): stops the timer in a phase of AlignSet; the phase holds its value. -/
def execShAlignStop (s : State) : Host.Outcome State Fault Refusal :=
  settle s (microStep s .shAlignStop (s.tmr.run && alignAdmits s.params.alignMode s.tmr.phase)
    { s with tmr := { s.tmr with run := false }, hostPhase := .shArm })

/-- A descriptor armed for a frame (43_sequencer R176): `done` cleared, `erq` set. -/
def Channel.arm (c : Channel) : Channel := { c with done := false, erq := true }

/-- SH_ARM's effect, one atomic step (43_sequencer R176): flags cleared, channels armed, InFlight, timer restarted, mask
released. -/
def shArmEffect (s : State) : State :=
  { s with
    ef := { rise := false, fall0 := false, fall1 := false }
    chA := s.chA.arm
    chB := s.chB.arm
    chC := s.chC.arm
    inFlight := true
    tmr := { s.tmr with run := true }
    imask := false
    hostPhase := .ready }

/-- SH_ARM (43_sequencer R176). -/
def execShArm (s : State) : Host.Outcome State Fault Refusal := settle s (microStep s .shArm true (shArmEffect s))

end Sys2Proof.Machine
end

