-- ==== Sys2Proof/Machine/Waveform.lean ====
section
/-! DEFINITION. The timer edges and the port primitives: EDGE_RISE, EDGE_FALL0, EDGE_FALL1, PORT_DATA, PORT_SET, PORT_CLEAR
(spec 40_waveform_and_lines R113 to R123). -/

namespace Sys2Proof.Machine

/-- The effect of edge `e` in the step of `i`. Enabled when the timer runs in the phase the edge leaves and, under
WINDOW_MODE = ASSUMED, no armed channel has a request waiting; under STRICT such an edge raises F_WINDOW (40 R114 to R117).
A flag that is already set stays set, whether or not its channel is armed (R113). A held edge leaves the state (log 1). -/
def edgeEffect (s : State) (i : Instr) (e : Edge) : State :=
  if s.tmr.run && decide (s.tmr.phase = e.source) then
    if s.windowOK then State.putFlag { s with tmr := { s.tmr with phase := e.target } } e true
    else
      match s.params.windowMode with
      | .assumed => s
      | .strict => raise s i .window (.edge e)
  else s

/-- EDGE_RISE (40_waveform_and_lines R115). -/
def execEdgeRise (s : State) : Host.Outcome State Fault Refusal := settle s (edgeEffect s .edgeRise .rise)

/-- EDGE_FALL0 (40_waveform_and_lines R116). -/
def execEdgeFall0 (s : State) : Host.Outcome State Fault Refusal := settle s (edgeEffect s .edgeFall0 .fall0)

/-- EDGE_FALL1 (40_waveform_and_lines R117). -/
def execEdgeFall1 (s : State) : Host.Outcome State Fault Refusal := settle s (edgeEffect s .edgeFall1 .fall1)

/-! A port primitive as a step of its own (log 15) is not enabled before INIT (70_reset_and_hazards R241). -/

/-- PORT_DATA(v), written by DMA_B (40_waveform_and_lines R121; log 15). -/
def execPortData (v : Byte) (s : State) : Host.Outcome State Fault Refusal := settle s (onceInit s (s.portWrite .dmaB .data v))

/-- PORT_SET(v), written by DMA_A (40_waveform_and_lines R122; log 15). -/
def execPortSet (v : Byte) (s : State) : Host.Outcome State Fault Refusal := settle s (onceInit s (s.portWrite .dmaA .set v))

/-- PORT_CLEAR(v), written by DMA_C (40_waveform_and_lines R123; log 15). -/
def execPortClear (v : Byte) (s : State) : Host.Outcome State Fault Refusal := settle s (onceInit s (s.portWrite .dmaC .clear v))

end Sys2Proof.Machine
end

