-- ==== Sys2Proof/Machine/Dispatch.lean ====
section
/-! DEFINITION. The meaning of every operation: one arm per constructor of Instr. -/

namespace Sys2Proof.Machine

def exec (i : Instr) (s : State) : Host.Outcome State Fault Refusal :=
  match i with
  -- HOST's operations
  | .init n base size rate => Sys2Proof.Machine.execInit n base size rate s
  | .writeDraw off val => Sys2Proof.Machine.execWriteDraw off val s
  | .readDraw off => Sys2Proof.Machine.execReadDraw off s
  | .memWrite addr val => Sys2Proof.Machine.execMemWrite addr val s
  | .memRead addr => Sys2Proof.Machine.execMemRead addr s
  | .showOp => Sys2Proof.Machine.execShow s
  | .busy => Sys2Proof.Machine.execBusy s
  | .swap => Sys2Proof.Machine.execSwap s
  -- SHOW's micro-steps
  | .shWaitInFlight => Sys2Proof.Machine.execShWaitInFlight s
  | .shSwap => Sys2Proof.Machine.execShSwap s
  | .shWaitGap => Sys2Proof.Machine.execShWaitGap s
  | .shMask => Sys2Proof.Machine.execShMask s
  | .shAlignStop => Sys2Proof.Machine.execShAlignStop s
  | .shArm => Sys2Proof.Machine.execShArm s
  -- the timer, the channels, the handler and time
  | .edgeRise => Sys2Proof.Machine.execEdgeRise s
  | .edgeFall0 => Sys2Proof.Machine.execEdgeFall0 s
  | .edgeFall1 => Sys2Proof.Machine.execEdgeFall1 s
  | .dmaA => Sys2Proof.Machine.execDmaA s
  | .dmaB => Sys2Proof.Machine.execDmaB s
  | .dmaC => Sys2Proof.Machine.execDmaC s
  | .irqCompletion => Sys2Proof.Machine.execIrqCompletion s
  | .time d => Sys2Proof.Machine.execTime d s
  -- the port primitives
  | .portData v => Sys2Proof.Machine.execPortData v s
  | .portSet v => Sys2Proof.Machine.execPortSet v s
  | .portClear v => Sys2Proof.Machine.execPortClear v s

end Sys2Proof.Machine
end

