-- ==== Sys2Proof/Machine/Schedule.lean ====
section
/-! DEFINITION. Which operation the next step takes: the scheduler's decision, the agent's own next step, and HOST's place in
its program (spec 00_scope R15 to R17; 10_state R52; 30_encoding R98, R100; log 5, log 6). -/

namespace Sys2Proof.Machine

/-- A record handed over by an issuer. -/
structure Issued where
  issuer : Issuer
  record : Record
deriving DecidableEq, Repr

/-- An operation the scheduler takes (30_encoding R98). -/
def scheduled (i : Instr) : Option Issued := some { issuer := .scheduler, record := encode i }

/-- The micro-step of SHOW that `s.hostPhase` names; none at READY (10_state R52). -/
def HostPhase.micro : HostPhase → Option Instr
  | .ready => none
  | .shWaitInFlight => some .shWaitInFlight
  | .shSwap => some .shSwap
  | .shWaitGap => some .shWaitGap
  | .shMask => some .shMask
  | .shAlignStop => some .shAlignStop
  | .shArm => some .shArm

/-- The edge the timer produces next in a phase (40_waveform_and_lines R110). -/
def edgeAfter : Phase → Instr
  | .tail => .edgeRise
  | .hiBoth => .edgeFall0
  | .hiOne => .edgeFall1

/-- HOST's next step: SHOW's next micro-step while SHOW is in progress, otherwise the next operation of its program, which
HOST thereby issues (00_scope R17). None when it has issued its last operation. -/
def hostTurn (s : State) : Option Issued × State :=
  match s.hostPhase.micro with
  | some i => (scheduled i, s)
  | none =>
    match s.program with
    | r :: rest => (some { issuer := .program, record := r }, { s with program := rest })
    | [] => (none, s)

/-- The step agent `a` takes next (00_scope R15); CLK's takes `extra + 1` time units. -/
def agentTurn (s : State) (a : Agent) (extra : Nat) : Option Issued × State :=
  match a with
  | .host => hostTurn s
  | .isr => (scheduled .irqCompletion, s)
  | .tmr => (scheduled (edgeAfter s.tmr.phase), s)
  | .dmaA => (scheduled .dmaA, s)
  | .dmaB => (scheduled .dmaB, s)
  | .dmaC => (scheduled .dmaC, s)
  | .clk => (scheduled (.time (extra + 1)), s)

/-- The scheduler's next decision: the oldest in `s.turns`, or, where there is none, a free value (00_scope R16; log 5). -/
def nextTurn (s : State) : Turn × State :=
  match s.turns with
  | t :: rest => (t, { s with turns := rest })
  | [] => (.agent (Config.freeTurn s.draws).1 (Config.freeTurn s.draws).2, { s with draws := s.draws + 1 })

/-- The operation the next step takes, if any, and the state with the decision taken and the program moved past it. -/
def fetch (s : State) : Option Issued × State :=
  match nextTurn s with
  | (.agent a extra, t) => agentTurn t a extra
  | (.issue issuer r, t) => (some { issuer := issuer, record := r }, t)

/-- Who may issue the operation whose code is in the record; a record that is no operation is the program's. -/
def issuerOf (r : Record) : Issuer :=
  match decode r with
  | .ok i => i.issuer
  | .error _ => .program

/-- `s` with `r` as the operation the next step takes, handed over by the issuer the table names. -/
def State.withIssued (s : State) (r : Record) : State := { s with turns := .issue (issuerOf r) r :: s.turns }

end Sys2Proof.Machine
end

