-- ==== Sys2Proof/Machine/Step.lean ====
section
/-! DEFINITION. One step of the machine: the scheduler's decision is taken, the operation is fetched, decoded and executed. -/

namespace Sys2Proof.Machine

/-- One step. A record the decoder or the placement check rejects is refused (30_encoding R100, 60_exceptions R212). Where the
chosen agent has no operation (HOST has issued its last one) nothing else changes. -/
def step (s : State) : Host.Outcome State Fault Refusal :=
  match fetch s with
  | (none, t) => settle t t
  | (some o, t) =>
    match accept o.issuer o.record with
    | .ok i => exec i t
    | .error _ => settle t (refuse t)

/-- `s` with the operation whose table bits are `w`, every operand zero, as the one the next step takes. -/
def State.withFetchWord (s : State) (nbits w : Nat) : State := s.withIssued (tableRecord nbits w)

end Sys2Proof.Machine
end

