-- ==== Sys2Proof/Machine/Text.lean ====
section
/-! DEFINITION. The textual form of a HOST program (spec 30_encoding R103, R104): one operation per line, `;` starts a comment,
numbers are decimal, or hexadecimal after `0x`. -/

namespace Sys2Proof.Machine

/-- Why a line is no operation. -/
inductive TextError where
  /-- The first word is no name of R103 or R104. -/
  | unknownName
  /-- The operands are not the ones the name takes. -/
  | badOperands
deriving DecidableEq, Repr

/-- The value of a digit character in base 16, lower or upper case. -/
def digitValue (c : Char) : Option Nat :=
  let n := c.toNat
  if 48 ≤ n ∧ n ≤ 57 then some (n - 48)
  else if 97 ≤ n ∧ n ≤ 102 then some (n - 87)
  else if 65 ≤ n ∧ n ≤ 70 then some (n - 55)
  else none

/-- Digits in a base, most significant first, after a value already read. -/
def parseDigits (radix acc : Nat) : List Char → Option Nat
  | [] => some acc
  | c :: cs =>
    match digitValue c with
    | some d => if d < radix then parseDigits radix (radix * acc + d) cs else none
    | none => none

/-- A number (R103). -/
def parseNat : List Char → Option Nat
  | [] => none
  | ['0', 'x'] => none
  | '0' :: 'x' :: cs => parseDigits 16 0 cs
  | cs => parseDigits 10 0 cs

/-- A byte operand (R102). -/
def parseByte (w : List Char) : Option Byte :=
  match parseNat w with
  | some n => if n < 2 ^ 8 then some (BitVec.ofNat 8 n) else none
  | none => none

/-- A 32-bit address operand (R102). -/
def parseAddr (w : List Char) : Option Addr :=
  match parseNat w with
  | some n => if n < 2 ^ 32 then some (BitVec.ofNat 32 n) else none
  | none => none

/-- The words of a line before its comment: blanks and commas separate words (log 18). `acc` holds the word being read, in
reverse order. -/
def lineWords (acc : List Char) : List Char → List (List Char)
  | [] => if acc.isEmpty then [] else [acc.reverse]
  | c :: cs =>
    if c = ';' then if acc.isEmpty then [] else [acc.reverse]
    else if c = ' ' ∨ c = ',' ∨ c = '\t' then
      if acc.isEmpty then lineWords [] cs else acc.reverse :: lineWords [] cs
    else lineWords (c :: acc) cs

/-- The rest of `w` after `key`. -/
def afterKey : List Char → List Char → Option (List Char)
  | [], w => some w
  | k :: ks, c :: w => if k = c then afterKey ks w else none
  | _ :: _, [] => none

/-- `rate=800k|400k`: the selector value RATE_CODE gives that rate (R97, R103). -/
def parseRate (p : Params) (w : List Char) : Option Nat :=
  if w = ['8', '0', '0', 'k'] then some p.code800k
  else if w = ['4', '0', '0', 'k'] then some p.code400k
  else none

/-- Every word of a list as a byte. -/
def parseBytes : List (List Char) → Option (List Byte)
  | [] => some []
  | w :: ws =>
    match parseByte w, parseBytes ws with
    | some b, some bs => some (b :: bs)
    | _, _ => none

/-- INIT's operands: `N=<n>, base=<addr>, size=<n>, rate=800k|400k`. -/
def parseInit (p : Params) (n base size rate : List Char) : Option Instr := do
  let n ← parseNat (← afterKey ['N', '='] n)
  let base ← parseAddr (← afterKey ['b', 'a', 's', 'e', '='] base)
  let size ← parseNat (← afterKey ['s', 'i', 'z', 'e', '='] size)
  let rate ← parseRate p (← afterKey ['r', 'a', 't', 'e', '='] rate)
  some (.init n base size rate)

/-- The operations one line stands for: an operation of R103, or a pseudo-operation of R104 expanded for a draw half of `len`
bytes; a blank or comment line stands for none. PUT_STRIP_BIT carries, as its last operand, the byte r it knows is there. -/
def parseLine (p : Params) (len : Nat) (line : List Char) : Except TextError (List Instr) :=
  match lineWords [] line with
  | [] => .ok []
  | name :: args =>
    let ofOption : Option (List Instr) → Except TextError (List Instr) := fun
      | some is => .ok is
      | none => .error .badOperands
    if name = ['I', 'N', 'I', 'T'] then
      match args with
      | [n, base, size, rate] => ofOption ((parseInit p n base size rate).map ([·]))
      | _ => .error .badOperands
    else if name = ['W', 'R', 'I', 'T', 'E', '_', 'D', 'R', 'A', 'W'] then
      match args with
      | [off, val] => ofOption do some [.writeDraw (← parseNat off) (← parseByte val)]
      | _ => .error .badOperands
    else if name = ['R', 'E', 'A', 'D', '_', 'D', 'R', 'A', 'W'] then
      match args with
      | [off] => ofOption do some [.readDraw (← parseNat off)]
      | _ => .error .badOperands
    else if name = ['M', 'E', 'M', '_', 'W', 'R', 'I', 'T', 'E'] then
      match args with
      | [addr, val] => ofOption do some [.memWrite (← parseAddr addr) (← parseByte val)]
      | _ => .error .badOperands
    else if name = ['M', 'E', 'M', '_', 'R', 'E', 'A', 'D'] then
      match args with
      | [addr] => ofOption do some [.memRead (← parseAddr addr)]
      | _ => .error .badOperands
    else if name = ['S', 'H', 'O', 'W'] then
      if args.isEmpty then .ok [.showOp] else .error .badOperands
    else if name = ['B', 'U', 'S', 'Y'] then
      if args.isEmpty then .ok [.busy] else .error .badOperands
    else if name = ['F', 'I', 'L', 'L', '_', 'D', 'R', 'A', 'W'] then
      match args with
      | [b] => ofOption do some (expandFillDraw len (← parseByte b))
      | _ => .error .badOperands
    else if name = ['P', 'U', 'T', '_', 'P', 'I', 'X', 'E', 'L'] then
      match args with
      | i :: bs => ofOption do
          let i ← parseNat i
          let bs ← parseBytes bs
          if h : bs.length = 24 then some (expandPutPixel i ⟨bs.toArray, by simpa using h⟩) else none
      | [] => .error .badOperands
    else if name = ['P', 'U', 'T', '_', 'S', 'T', 'R', 'I', 'P', '_', 'B', 'I', 'T'] then
      match args with
      | [s, k, bit, r] => ofOption do
          let s ← parseNat s
          let bit ← parseNat bit
          if h : s < 8 then
            if bit < 2 then some (expandPutStripBit ⟨s, h⟩ (← parseNat k) (decide (bit = 1)) (← parseByte r)) else none
          else none
      | _ => .error .badOperands
    else .error .unknownName

/-- The operations of a program text, line by line (R103). -/
def parseProgram (p : Params) (len : Nat) : List (List Char) → Except TextError (List Instr)
  | [] => .ok []
  | l :: ls =>
    match parseLine p len l, parseProgram p len ls with
    | .ok is, .ok js => .ok (is ++ js)
    | .error e, _ => .error e
    | .ok _, .error e => .error e

/-- `s` with a program handed over for HOST to issue: the records of its operations, after those it holds (log 6). -/
def State.withProgram (s : State) (is : List Instr) : State := { s with program := s.program ++ is.map encode }

end Sys2Proof.Machine
end

