-- ==== Sys2Proof/Machine/Timing.lean ====
section
/-! DEFINITION. The timing figures of the spec, as functions of the parameters (40_waveform_and_lines R112; 70 R262). No step
uses them: steps take no time and edges are not tied to time (60_exceptions R223, 70 R263; log 17). -/

namespace Sys2Proof.Machine

/-- f in Hz (00_scope R9 BIT_RATES). -/
def rateHz : Rate → Nat
  | .rate800k => 800000
  | .rate400k => 400000

/-- The bit period T = 1 / f in nanoseconds: 1.25 µs and 2.5 µs (40 R112). -/
def bitPeriodNs (r : Rate) : Nat := 1000000000 / rateHz r

/-- How long a phase of the bit cycle lasts, in nanoseconds (40 R112): HI_BOTH T0H_FRAC × T, HI_ONE (T1H_FRAC − T0H_FRAC) × T,
TAIL (1 − T1H_FRAC) × T. -/
def phaseNs (p : Params) (r : Rate) : Phase → Frac
  | .hiBoth => ⟨p.t0h.num * bitPeriodNs r, p.t0h.den⟩
  | .hiOne => ⟨(p.t1h.num * p.t0h.den - p.t0h.num * p.t1h.den) * bitPeriodNs r, p.t1h.den * p.t0h.den⟩
  | .tail => ⟨(p.t1h.den - p.t1h.num) * bitPeriodNs r, p.t1h.den⟩

/-- The high time of a "0" bit, T0H_FRAC × T, or of a "1" bit, T1H_FRAC × T, in nanoseconds (70 R262; 44_completion R195). -/
def highNs (p : Params) (r : Rate) (bit : Bool) : Frac :=
  if bit then ⟨p.t1h.num * bitPeriodNs r, p.t1h.den⟩ else ⟨p.t0h.num * bitPeriodNs r, p.t0h.den⟩

/-- One pixel, 24 bit-times, in nanoseconds (70 R262). -/
def pixelNs (r : Rate) : Nat := Config.bytesPerPixel * bitPeriodNs r

/-- One frame of `n` pixels, 24n bit-times, in nanoseconds (70 R262; 44_completion R197). -/
def frameNs (r : Rate) (n : Nat) : Nat := Config.bytesPerPixel * n * bitPeriodNs r

/-- SHOW's blocking, worst case, in nanoseconds, for an ISR latency given by the caller: one frame, the ISR latency, RESET_GAP,
and one T (70 R262; 43_sequencer R179). RESET_GAP is in microseconds. -/
def showBoundNs (p : Params) (r : Rate) (n isrNs : Nat) : Nat := frameNs r n + isrNs + p.resetGap * 1000 + bitPeriodNs r

end Sys2Proof.Machine
end

