-- ==== Sys2Proof/Machine/Run.lean ====
section
/-! DEFINITION. Runs of the block: which agent has an enabled step, the runs the scheduler may take, fairness, and the end of a
run (spec 00_scope R16, R19; 60_exceptions R223). -/

namespace Sys2Proof.Machine

/-! ## Enabled steps -/

/-- HOST's next step is enabled: it has an operation to issue, or SHOW's next micro-step is not in a hold (00_scope R17;
43_sequencer R171 to R176). -/
def State.hostEnabled (s : State) : Bool :=
  match s.hostPhase with
  | .ready => !s.program.isEmpty
  | .shWaitInFlight => !s.inFlight
  | .shSwap => true
  | .shWaitGap => !s.gapRunning
  | .shMask => true
  | .shAlignStop => s.tmr.run && alignAdmits s.params.alignMode s.tmr.phase
  | .shArm => true

/-- The timer's next edge is enabled (40_waveform_and_lines R114 to R117). -/
def State.timerEnabled (s : State) : Bool := s.tmr.run && (decide (s.params.windowMode = .strict) || s.windowOK)

/-- Agent `a` has an enabled step (00_scope R16): in a halted run no agent has one (60_exceptions R210, R212), the ISR none while
the mask is set (R215, R216), and the timer, under WINDOW_MODE = ASSUMED, none while a request waits (40 R114). -/
def State.enabled (s : State) (a : Agent) : Bool :=
  s.running &&
    match a with
    | .host => s.hostEnabled
    | .isr => s.irqReady
    | .tmr => s.timerEnabled
    | .dmaA => s.dmaReady .a
    | .dmaB => s.dmaReady .b
    | .dmaC => s.dmaReady .c
    | .clk => true

/-! ## Runs and fairness -/

/-- A scheduler's choice: the agent that steps, and, for CLK, by how much more than one unit time advances. -/
abbrev Choice := Agent × Nat

/-- The step of the chosen agent: `step`, with this one decision for its schedule. -/
def stepBy (s : State) (c : Choice) : Host.Outcome State Fault Refusal := step { s with turns := [.agent c.1 c.2] }

/-- An infinite run, state by state, and the choices that make it: at each point an agent with an enabled step takes it, any such
agent (00_scope R16). -/
structure IsRun (states : Nat → State) (choices : Nat → Choice) : Prop where
  enabled : ∀ k, (states k).enabled (choices k).1 = true
  step : ∀ k, stepBy (states k) (choices k) = .next (states (k + 1))

/-- Weak fairness (00_scope R16): an agent whose step stays enabled eventually takes it. -/
def WeaklyFair (states : Nat → State) (choices : Nat → Choice) : Prop :=
  ∀ (a : Agent) (k : Nat), (∀ j, k ≤ j → (states j).enabled a = true) → ∃ j, k ≤ j ∧ (choices j).1 = a

/-- The time source is fair: `now` grows without bound (00_scope R16; 60_exceptions R223). -/
def TimeUnbounded (states : Nat → State) : Prop := ∀ bound, ∃ k, bound ≤ (states k).now

/-- A fair run (00_scope R16). -/
structure IsFairRun (states : Nat → State) (choices : Nat → Choice) : Prop where
  run : IsRun states choices
  fair : WeaklyFair states choices
  time : TimeUnbounded states

/-! ## The end of a run -/

/-- The turn hands over an operation of HOST's program. -/
def Turn.issuesProgram : Turn → Bool
  | .agent _ _ => false
  | .issue .program _ => true
  | .issue .scheduler _ => false
  | .issue .shSwap _ => false
  | .issue .dmaA _ => false
  | .issue .dmaB _ => false
  | .issue .dmaC _ => false

/-- The end of a run (00_scope R19): HOST has issued its last operation (none is left in its program, and none in the schedule)
and is READY, no frame is in flight, and no interrupt is pending. A halted state is never a final state (R14). -/
def State.ended (s : State) : Bool :=
  s.running && s.program.isEmpty && s.turns.all (fun u => !u.issuesProgram) && decide (s.hostPhase = .ready) && !s.inFlight &&
    !s.irq.pend

end Sys2Proof.Machine
end

