-- ==== Sys2Proof/Safety.lean ====
section
/-! DEFINITION. What counts as a sound block, in the terms the statements use (spec 10_state R33, R57; 44_completion R194). -/

namespace Sys2Proof.Machine

/-! ## Runs -/

/-- `s` with the fault ⟨code, info, agent, op, now⟩ recorded and nothing else changed (60_exceptions R210), as the statements
write it out. -/
def State.faulted (s : State) (code : FaultCode) (info : FaultInfo) (agent : Agent) (op : Byte) : State :=
  { s with faults := s.faults ++ [{ code := code, info := info, agent := agent, op := op, time := s.now }] }

/-- A turn of the spec's agents: not SWAP or a port primitive taken as a step of its own, which in a run of the block happen
only inside SH_SWAP and inside a transfer (30_encoding R99, "issued by"; log 15). -/
def Turn.plain : Turn → Bool
  | .agent _ _ => true
  | .issue .program _ => true
  | .issue .scheduler _ => true
  | .issue .shSwap _ => false
  | .issue .dmaA _ => false
  | .issue .dmaB _ => false
  | .issue .dmaC _ => false

/-- Operations executed one after the other, with no other agent between them, stopping where the machine stops. -/
def execAll : List Instr → State → Host.Outcome State Fault Refusal
  | [], s => .next s
  | i :: is, s =>
    match exec i s with
    | .next t => execAll is t
    | .fault r => .fault r
    | .refused r => .refused r

/-! ## Geometry -/

/-- `cfg.N`, and 0 before INIT. -/
def State.pixels (s : State) : Nat :=
  match s.cfg with
  | some c => c.n
  | none => 0

/-- After INIT: the configuration is there, L = 24 × N, N ≥ 1, the block does not wrap, and the two roles are the two halves
(10_state R32, R33; 41_buffer_manager R136). -/
abbrev Geometry (s : State) : Prop :=
  s.initialized = true →
    s.cfg.isSome = true ∧ s.len = 24 * s.pixels ∧ 1 ≤ s.pixels ∧ s.base.toNat + 2 * s.len ≤ 2 ^ 32 ∧
    ((s.front = s.base ∧ s.draw = s.base + BitVec.ofNat 32 s.len) ∨
     (s.front = s.base + BitVec.ofNat 32 s.len ∧ s.draw = s.base))

/-- Before INIT nothing of the block can move (70_reset_and_hazards R240, R241). -/
abbrev Quiet (s : State) : Prop :=
  s.initialized = false →
    s.cfg = none ∧ s.inFlight = false ∧ s.completedAt = none ∧ s.tmr.run = false ∧ s.chA.erq = false ∧ s.chB.erq = false ∧
    s.chC.erq = false ∧ s.irq.en = false ∧ s.imask = false ∧ s.hostPhase = .ready

/-- The bytes of the draw half, in address order (20_memory R72). -/
def State.drawBytes (s : State) : List Byte :=
  (List.range s.len).map fun k => Memory.read s.mem (s.drawAddr k).toNat

/-! ## The pipeline -/

/-- Descriptor `c` holds the values INIT programs in the fields no transfer changes (30_encoding R95). -/
abbrev Channel.programmed (c d : Channel) : Prop :=
  c.konst = d.konst ∧ c.soff = d.soff ∧ c.slast = d.slast ∧ c.dst = d.dst ∧ c.biter = d.biter ∧ c.dreq = d.dreq ∧
  c.intmaj = d.intmaj ∧ c.trig = d.trig

/-- Transfers channel `c` still has to make in this frame. -/
def Channel.left (c : Channel) : Nat := if c.erq then c.citer else 0

/-- Some channel is armed. -/
def State.anyArmed (s : State) : Bool := s.chA.erq || s.chB.erq || s.chC.erq

/-- All three descriptors hold INIT's values in the fields no transfer changes. -/
abbrev Programmed (s : State) : Prop :=
  s.chA.programmed (descriptor .a s.len s.front) ∧ s.chB.programmed (descriptor .b s.len s.front) ∧
  s.chC.programmed (descriptor .c s.len s.front)

/-- A channel's count: L when disarmed, between 1 and L when armed (10_state R57 item 2). -/
abbrev CountOk (s : State) (c : Channel) : Prop := 1 ≤ c.citer ∧ c.citer ≤ s.len ∧ (c.erq = false → c.citer = s.len)

/-- Channel B's source: the front half's next byte when armed, its first byte when disarmed (10_state R57 item 3). -/
abbrev SourceOk (s : State) : Prop :=
  s.chB.src = s.front + BitVec.ofNat 32 (if s.chB.erq then s.len - s.chB.citer else 0)

/-- How SHOW, the frame and the interrupt go together (10_state R57 items 4 and 5; 43_sequencer R171 to R176; 44 R191). -/
abbrev Sequenced (s : State) : Prop :=
  s.irq.en = true ∧
  (s.anyArmed = true ∨ s.irq.pend = true → s.inFlight = true) ∧
  (s.inFlight = true → s.chC.erq = true ∨ s.irq.pend = true) ∧
  (s.irq.pend = true → s.anyArmed = false) ∧
  (s.hostPhase = .shSwap ∨ s.hostPhase = .shWaitGap ∨ s.hostPhase = .shMask ∨ s.hostPhase = .shAlignStop ∨
    s.hostPhase = .shArm → s.inFlight = false) ∧
  (s.hostPhase = .shMask ∨ s.hostPhase = .shAlignStop ∨ s.hostPhase = .shArm → s.gapRunning = false) ∧
  (s.imask = true ↔ s.hostPhase = .shAlignStop ∨ s.hostPhase = .shArm) ∧
  (s.tmr.run = false ↔ s.hostPhase = .shArm) ∧
  (s.hostPhase = .shArm → s.tmr.phase = .tail)

/-- The byte channel B sent last in this frame. -/
def State.lastSent (s : State) : Byte :=
  Memory.read s.mem (bitTimeAddr s.front (s.len - s.chB.left - 1)).toNat

/-- The three channels in step (42_transmit_pipeline R159; 44_completion R194): while a channel is armed, the phase, the edge
flags, the transfers left and the lines go together; with no channel armed the lines are low (44 R196). -/
abbrev Lockstep (s : State) : Prop :=
  (s.anyArmed = false → s.port.data = 0x00#8) ∧
  (s.anyArmed = true → s.tmr.phase = .hiBoth →
    s.ef.fall0 = false ∧ s.ef.fall1 = false ∧
    (s.ef.rise = true → s.chA.left = s.chC.left ∧ s.chB.left = s.chC.left ∧ s.port.data = 0x00#8) ∧
    (s.ef.rise = false → s.chA.left + 1 = s.chC.left ∧ s.chB.left = s.chC.left ∧ s.port.data = 0xFF#8)) ∧
  (s.anyArmed = true → s.tmr.phase = .hiOne →
    s.ef.rise = false ∧ s.ef.fall1 = false ∧
    (s.ef.fall0 = true → s.chA.left + 1 = s.chC.left ∧ s.chB.left = s.chC.left ∧ s.port.data = 0xFF#8) ∧
    (s.ef.fall0 = false → s.chA.left + 1 = s.chC.left ∧ s.chB.left + 1 = s.chC.left ∧ s.port.data = s.lastSent)) ∧
  (s.anyArmed = true → s.tmr.phase = .tail →
    s.ef.rise = false ∧ s.ef.fall0 = false ∧
    (s.ef.fall1 = true → s.chA.left + 1 = s.chC.left ∧ s.chB.left + 1 = s.chC.left ∧ s.port.data = s.lastSent) ∧
    (s.ef.fall1 = false → s.chA.left = s.chC.left ∧ s.chB.left = s.chC.left ∧ s.port.data = 0x00#8))

/-- The invariant of a block whose timer stops aligned (ALIGN_MODE = ASSUMED), under either WINDOW_MODE: the items of
10_state R57, and what 42 R159, R160 and 44 R194, R196 derive from the rules. -/
abbrev FrameInv (s : State) : Prop :=
  s.params.alignMode = .assumed ∧ s.turns.all Turn.plain = true ∧ s.completedAt.all (fun t => decide (t ≤ s.now)) = true ∧
  Quiet s ∧ Geometry s ∧
  (s.initialized = true →
    s.port.oe = 0xFF#8 ∧ Programmed s ∧ CountOk s s.chA ∧ CountOk s s.chB ∧ CountOk s s.chC ∧ SourceOk s ∧ Sequenced s ∧
    Lockstep s)

/-! ## The frame on the trace -/

/-- A port-register write. -/
def Event.isPort : Event → Bool
  | .port _ _ _ _ => true
  | .busy _ => false
  | .read _ _ => false
  | .irq _ => false

/-- A run of the completion handler. -/
def Event.isIrq : Event → Bool
  | .port _ _ _ _ => false
  | .busy _ => false
  | .read _ _ => false
  | .irq _ => true

/-- The port events of one bit-time that carries byte `m` (44_completion R194). -/
def bitTimeEvents (m : Byte) : List Event :=
  [.port .dmaA .set 0xFF#8 0xFF#8, .port .dmaB .data m m, .port .dmaC .clear 0xFF#8 0x00#8]

/-- The port events of a frame of bytes `ms` (44_completion R194). -/
def frameEvents (ms : List Byte) : List Event := ms.flatMap bitTimeEvents

/-- The bytes of the front half in transmission order (30_encoding R92). -/
def State.frontBytes (s : State) : List Byte :=
  (List.range s.len).map fun k => Memory.read s.mem (bitTimeAddr s.front k).toNat

/-- The state SH_ARM leaves (43_sequencer R176, R177): in flight, all three channels armed with count L, no edge flag set. -/
abbrev Launched (s : State) : Prop :=
  s.initialized = true ∧ s.hostPhase = .ready ∧ s.inFlight = true ∧ s.tmr.phase = .tail ∧
  s.chA.erq = true ∧ s.chB.erq = true ∧ s.chC.erq = true ∧
  s.chA.citer = s.len ∧ s.chB.citer = s.len ∧ s.chC.citer = s.len ∧
  s.ef.rise = false ∧ s.ef.fall0 = false ∧ s.ef.fall1 = false

/-- Port events of a frame sent so far, out of 3L (44_completion R194). -/
def State.sentEvents (s : State) : Nat := 3 * s.len - (s.chA.left + s.chB.left + s.chC.left)

end Sys2Proof.Machine
end

