-- ==== Sys2Proof/Certificates/Slice0/Obligations.lean ====
section
/-! DEFINITION. The statements about the block, one definition each, from the spec's numbered rules. -/

open Sys2Proof Sys2Proof.Machine

/-! ## Records, decoding and the step -/

/-- A record decodes to an operation exactly when it is that operation's record, so no bit of a code and no operand is dropped,
and no two operations share a record. Rests on 30_encoding R98, R99 and on the model's operand lists (log 11). -/
def Obligations.RecordDecodesExactlyToItsOperation : Prop :=
  ∀ (r : Record) (i : Instr), decode r = .ok i ↔ r = encode i

/-- The table's codes, read by the decoder with every operand zero (30_encoding R99). -/
def Obligations.TableCodesDecodeToTheirRows : Prop :=
  decodeTableWord 8 0x01 = some (.init 0 0#32 0 0) ∧ decodeTableWord 8 0x02 = some (.writeDraw 0 0#8) ∧
  decodeTableWord 8 0x05 = some (.memRead 0#32) ∧ decodeTableWord 8 0x08 = some .swap ∧
  decodeTableWord 8 0x16 = some .shArm ∧ decodeTableWord 8 0x21 = some .edgeFall0 ∧
  decodeTableWord 8 0x32 = some .dmaC ∧ decodeTableWord 8 0x40 = some .irqCompletion ∧
  decodeTableWord 8 0x50 = some (.time 0) ∧ decodeTableWord 8 0x62 = some (.portClear 0#8) ∧
  decodeTableWord 8 0x09 = none

/-- A record that is not accepted is refused: its step sets the mark and changes nothing else of the state the fetch leaves. No
record with a reserved code is accepted; from a program, neither SWAP nor a micro-step code nor a hardware-event code is; and a
port primitive is accepted from its channel alone (30_encoding R100). Three points are the model's own: a record is refused when
its turn to be issued comes, the fetch having taken it from the program (log 6); a record of a known code with the wrong operands
is refused too (log 11); and the refused step is itself a next state (log 3). -/
def Obligations.ReservedAndMisplacedCodesAreRefused : Prop :=
  (∀ (s t : State) (o : Issued), fetch s = (some o, t) → t.running = true → (∀ i, accept o.issuer o.record ≠ .ok i) →
    step s = .next { t with refused := true }) ∧
  (∀ (issuer : Issuer) (r : Record), (∀ i : Instr, i.code ≠ r.op) → ∀ i, accept issuer r ≠ .ok i) ∧
  (∀ i j : Instr, i = .swap ∨ i.issuer = .scheduler → accept .program (encode i) ≠ .ok j) ∧
  (∀ (issuer : Issuer) (v : Byte) (j : Instr),
    (issuer ≠ .dmaB → accept issuer (encode (.portData v)) ≠ .ok j) ∧
    (issuer ≠ .dmaA → accept issuer (encode (.portSet v)) ≠ .ok j) ∧
    (issuer ≠ .dmaC → accept issuer (encode (.portClear v)) ≠ .ok j))

/-- When the operation fetched is admitted, the step is its execution in the state the fetch leaves. -/
def Obligations.StepRunsTheFetchedOperation : Prop :=
  ∀ (s t : State) (o : Issued) (i : Instr), fetch s = (some o, t) → accept o.issuer o.record = .ok i → step s = exec i t

/-- What a fetch takes and what it leaves (log 5, log 6): an issued record; the chosen agent's own step, by the phase of the
timer, by SHOW's position, or from HOST's program; a free choice where the schedule is empty. It changes only the schedule, the
program and the counter of free values. -/
def Obligations.FetchTakesTheScheduledStep : Prop :=
  ∀ (s : State),
    ((fetch s).2 =
      { s with program := (fetch s).2.program, turns := (fetch s).2.turns, draws := (fetch s).2.draws }) ∧
    (∀ (issuer : Issuer) (r : Record) (rest : List Turn), s.turns = .issue issuer r :: rest →
      fetch s = (some { issuer := issuer, record := r }, { s with turns := rest })) ∧
    (∀ (d : Nat) (rest : List Turn), s.turns = .agent .clk d :: rest →
      fetch s = (some { issuer := .scheduler, record := encode (.time (d + 1)) }, { s with turns := rest })) ∧
    (∀ (d : Nat) (rest : List Turn), s.turns = .agent .isr d :: rest →
      fetch s = (some { issuer := .scheduler, record := encode .irqCompletion }, { s with turns := rest })) ∧
    (∀ (d : Nat) (rest : List Turn), s.turns = .agent .dmaA d :: rest →
      fetch s = (some { issuer := .scheduler, record := encode .dmaA }, { s with turns := rest })) ∧
    (∀ (d : Nat) (rest : List Turn), s.turns = .agent .dmaB d :: rest →
      fetch s = (some { issuer := .scheduler, record := encode .dmaB }, { s with turns := rest })) ∧
    (∀ (d : Nat) (rest : List Turn), s.turns = .agent .dmaC d :: rest →
      fetch s = (some { issuer := .scheduler, record := encode .dmaC }, { s with turns := rest })) ∧
    (∀ (d : Nat) (rest : List Turn), s.turns = .agent .tmr d :: rest →
      fetch s = (some { issuer := .scheduler,
                        record := encode (if s.tmr.phase = .tail then .edgeRise
                                          else if s.tmr.phase = .hiBoth then .edgeFall0 else .edgeFall1) },
                 { s with turns := rest })) ∧
    (∀ (d : Nat) (rest : List Turn) (r : Record) (rs : List Record), s.turns = .agent .host d :: rest →
      s.hostPhase = .ready → s.program = r :: rs →
      fetch s = (some { issuer := .program, record := r }, { s with turns := rest, program := rs })) ∧
    (∀ (d : Nat) (rest : List Turn), s.turns = .agent .host d :: rest → s.hostPhase = .ready → s.program = [] →
      fetch s = (none, { s with turns := rest })) ∧
    (∀ (d : Nat) (rest : List Turn) (i : Instr), s.turns = .agent .host d :: rest → s.hostPhase.micro = some i →
      fetch s = (some { issuer := .scheduler, record := encode i }, { s with turns := rest })) ∧
    (s.turns = [] →
      ∃ (a : Agent) (d : Nat), fetch s = agentTurn { s with draws := s.draws + 1 } a d)

/-- Exactly a running block steps: in it every operation, and the step, answers a next state, and in a halted one none does. This is
the model's reading: a held step, which 00_scope R14 gives no outcome, is a next state that changes nothing (log 1); a step that
faults or is refused is a next state too (log 3); and what a halted run answers is the model's choice (log 2), where 60_exceptions
R210 and R212 say that no agent has an enabled step. -/
def Obligations.OnlyARunningBlockSteps : Prop :=
  ∀ s : State,
    (∀ i, s.running = true ↔ ∃ t, exec i s = .next t) ∧ (s.running = true ↔ ∃ t, step s = .next t)

/-- 60_exceptions R210: a step that raises a fault appends the record ⟨code, info, agent, op, now⟩, discards every other write,
and halts the run. -/
def Obligations.AFaultIsRecordedAloneAndHalts : Prop :=
  ∀ (s t : State) (i : Instr), exec i s = .next t → t.faults ≠ s.faults →
    (∃ code info, t = s.faulted code info i.agent i.code) ∧
    (∀ (j : Instr) (u : State), exec j t ≠ .next u) ∧ (∀ u : State, step t ≠ .next u)

/-- 60_exceptions R212: a refused step sets the refusal mark, discards every other write, appends nothing to the faults or the trace,
and halts the run. The causes are a reserved code, a misplaced code, a record of a known code with the wrong operands (the
model's choice, log 11), and TIME with d = 0. The state kept is the one the fetch leaves: the record is not put back (log 6). -/
def Obligations.ARefusalIsMarkedAloneAndHalts : Prop :=
  (∀ s : State, s.running = true → exec (.time 0) s = .next { s with refused := true }) ∧
  (∀ s t : State, step s = .next t → t.refused = true →
    t = { (fetch s).2 with refused := true } ∧ (fetch s).2.faults = s.faults ∧ (fetch s).2.trace = s.trace ∧
    (∀ (j : Instr) (u : State), exec j t ≠ .next u) ∧ (∀ u : State, step t ≠ .next u) ∧
    ∃ o, (fetch s).1 = some o ∧
      ((∀ i, accept o.issuer o.record ≠ .ok i) ∨ accept o.issuer o.record = .ok (.time 0)))

/-! ## INIT -/

/-- 41_buffer_manager R130: where its checks pass, INIT writes the configuration, the roles, the zero fill, the port, the timer,
the descriptors of 30_encoding R95 and the completion state; the timer phase and the edge flags are draws, so nothing is said
of them; nothing else changes. -/
def Obligations.InitLeavesTheInitialState : Prop :=
  ∀ (s : State) (n : Nat) (base : Addr) (size rate : Nat) (r : Rate),
    s.running = true → s.hostPhase = .ready → s.initialized = false → s.params.code800k ≠ s.params.code400k →
    ((r = .rate800k ∧ rate = s.params.code800k) ∨ (r = .rate400k ∧ rate = s.params.code400k)) →
    1 ≤ n → 24 * n ≤ s.params.maxCount → 2 * (24 * n) ≤ size → base.toNat + 2 * (24 * n) ≤ 2 ^ 32 →
    ∃ t, exec (.init n base size rate) s = .next t ∧
      t.initialized = true ∧ t.cfg = some { n := n, len := 24 * n, base := base, size := size, rate := r } ∧
      t.front = base ∧ t.draw = base + BitVec.ofNat 32 (24 * n) ∧
      (∀ a : Nat, Memory.read t.mem a =
        if base.toNat ≤ a ∧ a < base.toNat + 2 * (24 * n) then 0x00#8 else Memory.read s.mem a) ∧
      t.port = { data := 0x00#8, oe := 0xFF#8 } ∧ t.tmr.run = true ∧ t.tmr.rate = r ∧
      (t.chA.konst = some 0xFF#8 ∧ t.chA.soff = 0#32 ∧ t.chA.slast = 0#32 ∧ t.chA.dst = .set ∧ t.chA.citer = 24 * n ∧
        t.chA.biter = 24 * n ∧ t.chA.dreq = true ∧ t.chA.intmaj = false ∧ t.chA.done = false ∧ t.chA.trig = .rise ∧
        t.chA.erq = false) ∧
      t.chB = { src := base, konst := none, soff := 1#32, slast := -BitVec.ofNat 32 (24 * n), dst := .data,
                citer := 24 * n, biter := 24 * n, dreq := true, intmaj := false, done := false, trig := .fall0,
                erq := false } ∧
      (t.chC.konst = some 0xFF#8 ∧ t.chC.soff = 0#32 ∧ t.chC.slast = 0#32 ∧ t.chC.dst = .clear ∧ t.chC.citer = 24 * n ∧
        t.chC.biter = 24 * n ∧ t.chC.dreq = true ∧ t.chC.intmaj = true ∧ t.chC.done = false ∧ t.chC.trig = .fall1 ∧
        t.chC.erq = false) ∧
      t.irq = { pend := false, en := true } ∧ t.imask = false ∧ t.inFlight = false ∧ t.completedAt = none ∧
      t.now = s.now ∧ t.params = s.params ∧ t.hostPhase = .ready ∧ t.faults = s.faults ∧ t.refused = s.refused ∧
      t.trace = s.trace ∧ t.program = s.program ∧ t.turns = s.turns

/-- 60_exceptions R219, the order of INIT's checks: F_REINIT, F_BAD_CONFIG, F_ZERO_LENGTH, F_COUNT_LIMIT, F_BAD_SIZE for the
size, F_BAD_SIZE for the wrap; only the first that applies is recorded. -/
def Obligations.InitRaisesTheFirstFaultThatApplies : Prop :=
  ∀ (s : State) (n : Nat) (base : Addr) (size rate : Nat), s.running = true → s.hostPhase = .ready →
    (s.initialized = true →
      exec (.init n base size rate) s = .next (s.faulted .reinit .none .host 0x01#8)) ∧
    (s.initialized = false → rate ≠ s.params.code800k → rate ≠ s.params.code400k →
      exec (.init n base size rate) s = .next (s.faulted .badConfig (.rate rate) .host 0x01#8)) ∧
    (s.initialized = false → (rate = s.params.code800k ∨ rate = s.params.code400k) → n = 0 →
      exec (.init n base size rate) s = .next (s.faulted .zeroLength .none .host 0x01#8)) ∧
    (s.initialized = false → (rate = s.params.code800k ∨ rate = s.params.code400k) → 1 ≤ n → s.params.maxCount < 24 * n →
      exec (.init n base size rate) s = .next (s.faulted .countLimit (.pixels n) .host 0x01#8)) ∧
    (s.initialized = false → (rate = s.params.code800k ∨ rate = s.params.code400k) → 1 ≤ n → 24 * n ≤ s.params.maxCount →
      size < 2 * (24 * n) →
      exec (.init n base size rate) s = .next (s.faulted .badSize (.size size) .host 0x01#8)) ∧
    (s.initialized = false → (rate = s.params.code800k ∨ rate = s.params.code400k) → 1 ≤ n → 24 * n ≤ s.params.maxCount →
      2 * (24 * n) ≤ size → 2 ^ 32 < base.toNat + 2 * (24 * n) →
      exec (.init n base size rate) s = .next (s.faulted .badSize (.base base) .host 0x01#8))

/-- 41_buffer_manager R144 [derived there]: an INIT that raises no fault leaves both halves equal to the zero sequence of length
24N. -/
def Obligations.InitZeroFillsBothHalves : Prop :=
  ∀ (s t : State) (n : Nat) (base : Addr) (size rate : Nat),
    exec (.init n base size rate) s = .next t → s.hostPhase = .ready → t.faults = s.faults →
    t.frontBytes = List.replicate (24 * n) 0x00#8 ∧ t.drawBytes = List.replicate (24 * n) 0x00#8

/-! ## The buffer manager -/

/-- 41_buffer_manager R131: once the block is initialised (before INIT the step is not enabled, 70_reset_and_hazards R241), SWAP
exchanges the two roles and touches nothing else, memory included; its code is 0x08; only SH_SWAP issues it, and a program that
contains it is refused. -/
def Obligations.SwapExchangesTheRoles : Prop :=
  (∀ s : State, s.running = true → s.initialized = true →
    exec .swap s = .next { s with front := s.draw, draw := s.front }) ∧
  Instr.swap.code = 0x08#8 ∧ Instr.swap.issuer = .shSwap ∧ accept .program (encode .swap) = .error (.misplaced 0x08#8)

/-- 41_buffer_manager R132 [derived there]: SWAP twice restores the roles, and SWAP keeps memory and the geometry of R33. -/
def Obligations.SwapTwiceRestoresTheRoles : Prop :=
  ∀ s t : State, exec .swap s = .next t →
    exec .swap t = .next s ∧ t.mem = s.mem ∧ (Geometry s → Geometry t)

/-- 41_buffer_manager R140, WRITE_DRAW: F_NOT_INIT, then F_RANGE(off); otherwise the byte at draw + off is the one written, every
other byte reads as before, and nothing else changes. -/
def Obligations.WriteDrawStoresOneByte : Prop :=
  ∀ (s : State) (off : Nat) (val : Byte), s.running = true → s.hostPhase = .ready →
    (s.initialized = false →
      exec (.writeDraw off val) s = .next (s.faulted .notInit .none .host 0x02#8)) ∧
    (s.initialized = true → s.len ≤ off →
      exec (.writeDraw off val) s = .next (s.faulted .range (.offset off) .host 0x02#8)) ∧
    (s.initialized = true → off < s.len → s.inBlock (s.draw + BitVec.ofNat 32 off) = false →
      exec (.writeDraw off val) s =
        .next (s.faulted .range (.addr (s.draw + BitVec.ofNat 32 off)) .host 0x02#8)) ∧
    (s.initialized = true → off < s.len → s.inBlock (s.draw + BitVec.ofNat 32 off) = true → Memory.wf s.mem = true →
      ∃ m, exec (.writeDraw off val) s = .next { s with mem := m } ∧
        Memory.read m (s.draw + BitVec.ofNat 32 off).toNat = val ∧
        ∀ a, a ≠ (s.draw + BitVec.ofNat 32 off).toNat → Memory.read m a = Memory.read s.mem a)

/-- Under the geometry of 10_state R33, WRITE_DRAW of every offset below L runs, and READ_DRAW of it then emits that byte
(41_buffer_manager R140, R141; 20_memory R82 [decision there]). -/
def Obligations.ReadDrawReturnsTheByteWritten : Prop :=
  ∀ (s : State) (off : Nat) (val : Byte), s.running = true → s.hostPhase = .ready → s.initialized = true → Geometry s →
    Memory.wf s.mem = true → off < s.len →
    ∃ t, exec (.writeDraw off val) s = .next t ∧
      exec (.readDraw off) t = .next { t with trace := s.trace ++ [.read (s.draw + BitVec.ofNat 32 off) val] }

/-- 41_buffer_manager R141, READ_DRAW: F_NOT_INIT, then F_RANGE(off); otherwise ReadEv with the byte at draw + off, and nothing
else changes. -/
def Obligations.ReadDrawEmitsTheByte : Prop :=
  ∀ (s : State) (off : Nat), s.running = true → s.hostPhase = .ready →
    (s.initialized = false → exec (.readDraw off) s = .next (s.faulted .notInit .none .host 0x03#8)) ∧
    (s.initialized = true → s.len ≤ off →
      exec (.readDraw off) s = .next (s.faulted .range (.offset off) .host 0x03#8)) ∧
    (s.initialized = true → off < s.len → s.inBlock (s.draw + BitVec.ofNat 32 off) = false →
      exec (.readDraw off) s = .next (s.faulted .range (.addr (s.draw + BitVec.ofNat 32 off)) .host 0x03#8)) ∧
    (s.initialized = true → off < s.len → s.inBlock (s.draw + BitVec.ofNat 32 off) = true →
      exec (.readDraw off) s =
        .next { s with trace := s.trace ++ [.read (s.draw + BitVec.ofNat 32 off)
          (Memory.read s.mem (s.draw + BitVec.ofNat 32 off).toNat)] })

/-- 41_buffer_manager R142, MEM_WRITE: F_NOT_INIT, F_RANGE(addr), F_FRONT_WRITE(addr, TS) in every transmission state; otherwise
the byte at addr is the one written, every other byte reads as before, and nothing else changes. -/
def Obligations.MemWriteStoresOutsideTheFrontHalf : Prop :=
  ∀ (s : State) (addr : Addr) (val : Byte), s.running = true → s.hostPhase = .ready →
    (s.initialized = false →
      exec (.memWrite addr val) s = .next (s.faulted .notInit .none .host 0x04#8)) ∧
    (s.initialized = true → s.inBlock addr = false →
      exec (.memWrite addr val) s = .next (s.faulted .range (.addr addr) .host 0x04#8)) ∧
    (s.initialized = true → s.inBlock addr = true → s.inFront addr = true →
      exec (.memWrite addr val) s = .next (s.faulted .frontWrite (.addrTx addr s.txState) .host 0x04#8)) ∧
    (s.initialized = true → s.inBlock addr = true → s.inFront addr = false → Memory.wf s.mem = true →
      ∃ m, exec (.memWrite addr val) s = .next { s with mem := m } ∧
        Memory.read m addr.toNat = val ∧ ∀ a, a ≠ addr.toNat → Memory.read m a = Memory.read s.mem a)

/-- 41_buffer_manager R143, MEM_READ: F_NOT_INIT, then F_RANGE(addr); otherwise ReadEv with the byte at addr, in either half and
in every transmission state, and nothing else changes. -/
def Obligations.MemReadEmitsTheByte : Prop :=
  ∀ (s : State) (addr : Addr), s.running = true → s.hostPhase = .ready →
    (s.initialized = false → exec (.memRead addr) s = .next (s.faulted .notInit .none .host 0x05#8)) ∧
    (s.initialized = true → s.inBlock addr = false →
      exec (.memRead addr) s = .next (s.faulted .range (.addr addr) .host 0x05#8)) ∧
    (s.initialized = true → s.inBlock addr = true →
      exec (.memRead addr) s =
        .next { s with trace := s.trace ++ [.read addr (Memory.read s.mem addr.toNat)] })

/-! ## SHOW -/

/-- 43_sequencer R170, SHOW: F_REENTRY, then F_NOT_INIT; otherwise only hostPhase changes, in any transmission state. -/
def Obligations.ShowBeginsTheMicroSteps : Prop :=
  ∀ s : State, s.running = true →
    (s.hostPhase ≠ .ready → exec .showOp s = .next (s.faulted .reentry .none .host 0x06#8)) ∧
    (s.hostPhase = .ready → s.initialized = false → exec .showOp s = .next (s.faulted .notInit .none .host 0x06#8)) ∧
    (s.hostPhase = .ready → s.initialized = true → exec .showOp s = .next { s with hostPhase := .shWaitInFlight })

/-- 43_sequencer R171 and R173: SH_WAIT_INFLIGHT passes once no frame is in flight, SH_WAIT_GAP once the reset gap has elapsed
(at once where no frame has completed); each changes only hostPhase. -/
def Obligations.WaitsPassWhenTheirHoldEnds : Prop :=
  ∀ s : State, s.running = true →
    (s.hostPhase = .shWaitInFlight → s.inFlight = false →
      exec .shWaitInFlight s = .next { s with hostPhase := .shSwap }) ∧
    (s.hostPhase = .shWaitGap → s.completedAt = none →
      exec .shWaitGap s = .next { s with hostPhase := .shMask }) ∧
    (∀ t : Nat, s.hostPhase = .shWaitGap → s.completedAt = some t → t ≤ s.now → s.params.resetGap ≤ s.now - t →
      exec .shWaitGap s = .next { s with hostPhase := .shMask })

/-- 43_sequencer R172, SH_SWAP: the roles are exchanged, channel B's source is the new front half, and nothing else changes but
hostPhase. -/
def Obligations.ShSwapRepointsChannelB : Prop :=
  ∀ s : State, s.running = true → s.hostPhase = .shSwap →
    exec .shSwap s =
      .next { s with front := s.draw, draw := s.front, chB := { s.chB with src := s.draw }, hostPhase := .shWaitGap }

/-- 43_sequencer R174 and R175: SH_MASK sets the mask; SH_ALIGN_STOP stops the running timer, in TAIL under ALIGN_MODE = ASSUMED
and in any phase under ANY, and the phase holds its value; each changes nothing else but hostPhase. -/
def Obligations.MaskAndStopEnterTheCriticalSection : Prop :=
  ∀ s : State, s.running = true →
    (s.hostPhase = .shMask → exec .shMask s = .next { s with imask := true, hostPhase := .shAlignStop }) ∧
    (s.hostPhase = .shAlignStop → s.tmr.run = true → (s.params.alignMode = .any ∨ s.tmr.phase = .tail) →
      exec .shAlignStop s = .next { s with tmr := { s.tmr with run := false }, hostPhase := .shArm })

/-- 43_sequencer R176, SH_ARM: the flags are cleared, the channels armed with `done` cleared, InFlight set, the timer restarted in
its held phase, the mask released, and HOST is READY; nothing else changes. -/
def Obligations.ShArmLaunchesTheFrame : Prop :=
  ∀ s : State, s.running = true → s.hostPhase = .shArm →
    exec .shArm s =
      .next { s with
        ef := { rise := false, fall0 := false, fall1 := false }
        chA := { s.chA with done := false, erq := true }
        chB := { s.chB with done := false, erq := true }
        chC := { s.chC with done := false, erq := true }
        inFlight := true
        tmr := { s.tmr with run := true }
        imask := false
        hostPhase := .ready }

/-- What a step waits for (00_scope R17; 40 R115 to R117; 43 R171 to R175; 60_exceptions R216; 70 R241): while SHOW is in progress HOST
issues nothing but SHOW's own micro-steps; a micro-step that is not the one hostPhase names waits; SH_WAIT_INFLIGHT waits while a
frame is in flight, SH_WAIT_GAP while the reset gap runs, SH_ALIGN_STOP while the timer is stopped and, under ASSUMED, while the
phase is not TAIL; an edge waits in a wrong phase and while the timer is stopped; the handler waits while it is not pending, not
enabled or masked; SWAP and the port primitives wait before INIT, also where they are placed as steps of their own (log 15). That a step which waits leaves the state as it is, is the model's reading of a held step (log 1). -/
def Obligations.StepsWaitForTheirTurn : Prop :=
  ∀ s : State, s.running = true →
    (∀ i : Instr, i.issuer = .program → i ≠ .showOp → s.hostPhase ≠ .ready → exec i s = .next s) ∧
    (∀ (p : HostPhase) (i : Instr), p.micro = some i → s.hostPhase ≠ p → exec i s = .next s) ∧
    (s.inFlight = true → exec .shWaitInFlight s = .next s) ∧
    (∀ c, s.completedAt = some c → s.now - c < s.params.resetGap → exec .shWaitGap s = .next s) ∧
    (s.tmr.run = false ∨ (s.params.alignMode = .assumed ∧ s.tmr.phase ≠ .tail) → exec .shAlignStop s = .next s) ∧
    (s.tmr.run = false ∨ s.tmr.phase ≠ .tail → exec .edgeRise s = .next s) ∧
    (s.tmr.run = false ∨ s.tmr.phase ≠ .hiBoth → exec .edgeFall0 s = .next s) ∧
    (s.tmr.run = false ∨ s.tmr.phase ≠ .hiOne → exec .edgeFall1 s = .next s) ∧
    (s.irq.pend = false ∨ s.irq.en = false ∨ s.imask = true → exec .irqCompletion s = .next s) ∧
    (s.initialized = false → exec .swap s = .next s ∧
      ∀ v, exec (.portData v) s = .next s ∧ exec (.portSet v) s = .next s ∧ exec (.portClear v) s = .next s)

/-- 43_sequencer R177 [derived there]: SHOW's seven steps, taken in order from an idle block whose timer is in TAIL, launch the
frame: TS = InFlight, the roles are exchanged, channel B's source is the new front half, all three channels are armed with count
L, no edge flag is set, the lines are low, HOST is READY and memory is untouched. -/
def Obligations.ShowLaunchesTheDrawHalf : Prop :=
  ∀ s : State, FrameInv s → s.running = true → s.initialized = true → s.hostPhase = .ready → s.txState = .idle →
    s.tmr.phase = .tail →
    ∃ t, execAll [.showOp, .shWaitInFlight, .shSwap, .shWaitGap, .shMask, .shAlignStop, .shArm] s = .next t ∧
      Launched t ∧ t.txState = .inFlight ∧ t.front = s.draw ∧ t.draw = s.front ∧ t.chB.src = t.front ∧
      t.port.data = 0x00#8 ∧ t.tmr.run = true ∧ t.imask = false ∧ t.mem = s.mem ∧ t.trace = s.trace

/-! ## The timer -/

/-- 40_waveform_and_lines R115 to R117, R110, R113: EDGE_RISE goes from TAIL to HI_BOTH and sets rise, EDGE_FALL0 from HI_BOTH to
HI_ONE and sets fall0, EDGE_FALL1 from HI_ONE to TAIL and sets fall1, where the timer runs and no armed channel has a request
waiting, whether or not a channel is armed; under STRICT an edge with a request waiting raises F_WINDOW with that edge; nothing
else changes. -/
def Obligations.EdgesAdvanceThePhaseAndSetTheirFlag : Prop :=
  ∀ s : State, s.running = true → s.tmr.run = true →
    (s.tmr.phase = .tail →
      (s.windowOK = true →
        exec .edgeRise s =
          .next { s with tmr := { s.tmr with phase := .hiBoth }, ef := { s.ef with rise := true } }) ∧
      (s.windowOK = false → s.params.windowMode = .strict →
        exec .edgeRise s = .next (s.faulted .window (.edge .rise) .tmr 0x20#8))) ∧
    (s.tmr.phase = .hiBoth →
      (s.windowOK = true →
        exec .edgeFall0 s =
          .next { s with tmr := { s.tmr with phase := .hiOne }, ef := { s.ef with fall0 := true } }) ∧
      (s.windowOK = false → s.params.windowMode = .strict →
        exec .edgeFall0 s = .next (s.faulted .window (.edge .fall0) .tmr 0x21#8))) ∧
    (s.tmr.phase = .hiOne →
      (s.windowOK = true →
        exec .edgeFall1 s =
          .next { s with tmr := { s.tmr with phase := .tail }, ef := { s.ef with fall1 := true } }) ∧
      (s.windowOK = false → s.params.windowMode = .strict →
        exec .edgeFall1 s = .next (s.faulted .window (.edge .fall1) .tmr 0x22#8)))

/-- 40_waveform_and_lines R114: an armed channel whose trigger flag is set, and only that, closes the window; a flag whose channel
is disarmed does not (vector T8). Under ASSUMED a closed window holds every edge, which waits (log 1). -/
def Obligations.AnArmedRequestHoldsTheNextEdge : Prop :=
  ∀ s : State,
    (s.windowOK = false ↔ ∃ x : Chan, (s.ch x).erq = true ∧ s.flag (s.ch x).trig = true) ∧
    (s.running = true → s.params.windowMode = .assumed → s.windowOK = false →
      exec .edgeRise s = .next s ∧ exec .edgeFall0 s = .next s ∧ exec .edgeFall1 s = .next s)

/-! ## The port and the channels -/

/-- 40_waveform_and_lines R121 to R123, once the block is initialised (before INIT the step is not enabled, 70_reset_and_hazards
R241): PORT_DATA replaces the data register, PORT_SET ORs, PORT_CLEAR AND-NOTs; each emits one port event by its channel with the
levels after the write, and changes nothing else. -/
def Obligations.PortPrimitivesWriteAndEmit : Prop :=
  ∀ (s : State) (v : Byte), s.running = true → s.initialized = true →
    exec (.portData v) s =
      .next { s with port := { s.port with data := v }, trace := s.trace ++ [.port .dmaB .data v v] } ∧
    exec (.portSet v) s =
      .next { s with port := { s.port with data := s.port.data ||| v },
                     trace := s.trace ++ [.port .dmaA .set v (s.port.data ||| v)] } ∧
    exec (.portClear v) s =
      .next { s with port := { s.port with data := s.port.data &&& ~~~v },
                     trace := s.trace ++ [.port .dmaC .clear v (s.port.data &&& ~~~v)] }

/-- 42_transmit_pipeline R161 [derived there]: lane by lane, channel A's write raises every line, channel B's write puts bit s of
its byte on line s, and channel C's write lowers every line, whatever the lines were. -/
def Obligations.TransfersActLaneByLane : Prop :=
  ∀ (data b : Byte) (s : Fin 8),
    stripBit (portAfter data .set 0xFF#8) s = true ∧ stripBit (portAfter data .data b) s = stripBit b s ∧
    stripBit (portAfter data .clear 0xFF#8) s = false

/-- 42_transmit_pipeline R152, R156 to R158, for every descriptor: an enabled channel x writes its constant, or else the byte at
its source, to its port register, and consumes its trigger flag; its source advances by soff and its count by minus one; when the
count reaches 0, slast is added, the count reloaded, done set, erq cleared where dreq, and the interrupt made pending where
intmaj. A source byte outside the block raises F_RANGE with no other effect. Everything else is unchanged. -/
def Obligations.EveryTransferFollowsItsDescriptor : Prop :=
  ∀ (s : State) (x : Chan) (i : Instr), ((x = .a ∧ i = .dmaA) ∨ (x = .b ∧ i = .dmaB) ∨ (x = .c ∧ i = .dmaC)) →
    s.running = true → (s.ch x).erq = true → s.flag (s.ch x).trig = true → 1 ≤ (s.ch x).citer →
    ((s.ch x).konst = none → s.inBlock (s.ch x).src = false →
      exec i s = .next (s.faulted .range (.addr (s.ch x).src) x.agent i.code)) ∧
    (∀ v : Byte, ((s.ch x).konst = some v ∨
        ((s.ch x).konst = none ∧ s.inBlock (s.ch x).src = true ∧ v = Memory.read s.mem (s.ch x).src.toNat)) →
      ∃ t, exec i s = .next t ∧
        t.port.data = (if (s.ch x).dst = .set then s.port.data ||| v
                       else if (s.ch x).dst = .clear then s.port.data &&& ~~~v else v) ∧
        t.port.oe = s.port.oe ∧ t.trace = s.trace ++ [.port x.agent (s.ch x).dst v t.port.data] ∧
        (∀ e : Edge, t.flag e = if e = (s.ch x).trig then false else s.flag e) ∧
        (∀ y : Chan, y ≠ x → t.ch y = s.ch y) ∧
        (2 ≤ (s.ch x).citer →
          t.ch x = { s.ch x with src := (s.ch x).src + (s.ch x).soff, citer := (s.ch x).citer - 1 } ∧ t.irq = s.irq) ∧
        ((s.ch x).citer = 1 →
          t.ch x = { s.ch x with src := (s.ch x).src + (s.ch x).soff + (s.ch x).slast, citer := (s.ch x).biter,
                                 done := true, erq := !(s.ch x).dreq } ∧
          t.irq = { s.irq with pend := s.irq.pend || (s.ch x).intmaj }) ∧
        t = { s with port := t.port, ef := t.ef, chA := t.chA, chB := t.chB, chC := t.chC, irq := t.irq,
                     trace := t.trace })

/-- 42_transmit_pipeline R153, DMA_A with the descriptor INIT programs: every line goes high, the rise flag is consumed, one
transfer fewer is left; the last one disarms the channel, reloads the count, and raises no interrupt. -/
def Obligations.DmaARaisesEveryLine : Prop :=
  ∀ s : State, s.running = true → s.chA.programmed (descriptor .a s.len s.front) → s.chA.erq = true → s.ef.rise = true →
    1 ≤ s.chA.citer →
    (2 ≤ s.chA.citer →
      exec .dmaA s =
        .next { s with
          port := { s.port with data := 0xFF#8 }, ef := { s.ef with rise := false }
          chA := { s.chA with citer := s.chA.citer - 1 }
          trace := s.trace ++ [.port .dmaA .set 0xFF#8 0xFF#8] }) ∧
    (s.chA.citer = 1 →
      exec .dmaA s =
        .next { s with
          port := { s.port with data := 0xFF#8 }, ef := { s.ef with rise := false }
          chA := { s.chA with citer := s.len, done := true, erq := false }
          trace := s.trace ++ [.port .dmaA .set 0xFF#8 0xFF#8] })

/-- 42_transmit_pipeline R154, DMA_B with the descriptor INIT programs: the byte at its source goes to the lines, the fall0 flag is
consumed, the source advances by one; the last transfer adds the back-offset, disarms and reloads. A source outside the block
raises F_RANGE with no other effect. -/
def Obligations.DmaBSendsTheNextByte : Prop :=
  ∀ s : State, s.running = true → s.chB.programmed (descriptor .b s.len s.front) → s.chB.erq = true → s.ef.fall0 = true →
    1 ≤ s.chB.citer →
    (s.inBlock s.chB.src = false → exec .dmaB s = .next (s.faulted .range (.addr s.chB.src) .dmaB 0x31#8)) ∧
    (∀ v : Byte, s.inBlock s.chB.src = true → v = Memory.read s.mem s.chB.src.toNat →
      (2 ≤ s.chB.citer →
        exec .dmaB s =
          .next { s with
            port := { s.port with data := v }, ef := { s.ef with fall0 := false }
            chB := { s.chB with src := s.chB.src + 1#32, citer := s.chB.citer - 1 }
            trace := s.trace ++ [.port .dmaB .data v v] }) ∧
      (s.chB.citer = 1 →
        exec .dmaB s =
          .next { s with
            port := { s.port with data := v }, ef := { s.ef with fall0 := false }
            chB := { s.chB with src := s.chB.src + 1#32 - BitVec.ofNat 32 s.len, citer := s.len, done := true, erq := false }
            trace := s.trace ++ [.port .dmaB .data v v] }))

/-- 42_transmit_pipeline R155, DMA_C with the descriptor INIT programs: every line goes low, the fall1 flag is consumed; the last
transfer disarms the channel, reloads the count, and makes the completion interrupt pending in the same step. -/
def Obligations.DmaCLowersEveryLineAndCompletes : Prop :=
  ∀ s : State, s.running = true → s.chC.programmed (descriptor .c s.len s.front) → s.chC.erq = true → s.ef.fall1 = true →
    1 ≤ s.chC.citer →
    (2 ≤ s.chC.citer →
      exec .dmaC s =
        .next { s with
          port := { s.port with data := 0x00#8 }, ef := { s.ef with fall1 := false }
          chC := { s.chC with citer := s.chC.citer - 1 }
          trace := s.trace ++ [.port .dmaC .clear 0xFF#8 0x00#8] }) ∧
    (s.chC.citer = 1 →
      exec .dmaC s =
        .next { s with
          port := { s.port with data := 0x00#8 }, ef := { s.ef with fall1 := false }
          chC := { s.chC with citer := s.len, done := true, erq := false }
          irq := { s.irq with pend := true }
          trace := s.trace ++ [.port .dmaC .clear 0xFF#8 0x00#8] })

/-- 42_transmit_pipeline R151 and the mask of 60_exceptions R215: a channel that is not both armed and requested takes no transfer
and waits (log 1), and neither the interrupt mask nor the timer's run bit changes what a channel does. -/
def Obligations.AChannelStepsOnlyWhenArmedAndRequested : Prop :=
  ∀ s t : State,
    (exec .dmaA s = .next t → ¬(s.chA.erq = true ∧ s.flag s.chA.trig = true) → t = s) ∧
    (exec .dmaB s = .next t → ¬(s.chB.erq = true ∧ s.flag s.chB.trig = true) → t = s) ∧
    (exec .dmaC s = .next t → ¬(s.chC.erq = true ∧ s.flag s.chC.trig = true) → t = s) ∧
    (∀ (m run : Bool) (i : Instr), (i = .dmaA ∨ i = .dmaB ∨ i = .dmaC) → exec i s = .next t →
      exec i { s with imask := m, tmr := { s.tmr with run := run } } =
        .next { t with imask := m, tmr := { t.tmr with run := run } })

/-- 30_encoding R96 and 42_transmit_pipeline R160 [derived there]: channel B's source, programmed for L bytes from a, is a + k
after k transfers, and a again, with the count L reloaded, after the L-th transfer's completion. -/
def Obligations.BackOffsetReturnsToTheFirstByte : Prop :=
  ∀ (a : Addr) (len : Nat), 1 ≤ len →
    (∀ k, k ≤ len → (Nat.repeat Channel.advance k (descriptor .b len a)).src = a + BitVec.ofNat 32 k ∧
      (Nat.repeat Channel.advance k (descriptor .b len a)).citer = len - k) ∧
    (Nat.repeat Channel.advance len (descriptor .b len a)).complete =
      { descriptor .b len a with done := true, erq := false }

/-! ## Completion, busy and time -/

/-- 44_completion R190, 60_exceptions R216, R217, IRQ_COMPLETION, where it is pending, enabled and not masked: the handler
acknowledges, records the time, ends InFlight and emits IrqEv(now); nothing else changes, the mask and the enable included, so
nothing is saved or restored. -/
def Obligations.TheHandlerEndsTheFrame : Prop :=
  ∀ s : State, s.running = true → s.irq.pend = true → s.irq.en = true → s.imask = false →
    exec .irqCompletion s =
      .next { s with irq := { s.irq with pend := false }, completedAt := some s.now, inFlight := false,
                     trace := s.trace ++ [.irq s.now] }

/-- 44_completion R192, BUSY: F_NOT_INIT; otherwise BusyEv with true exactly in flight or less than RESET_GAP after the
timestamp, and nothing else changes. -/
def Obligations.BusyReportsFlightOrGap : Prop :=
  ∀ s : State, s.running = true → s.hostPhase = .ready →
    (s.initialized = false → exec .busy s = .next (s.faulted .notInit .none .host 0x07#8)) ∧
    (s.initialized = true → (s.inFlight = true ∨ ∃ t, s.completedAt = some t ∧ s.now - t < s.params.resetGap) →
      exec .busy s = .next { s with trace := s.trace ++ [.busy true] }) ∧
    (s.initialized = true → s.inFlight = false → (∀ t, s.completedAt = some t → s.params.resetGap ≤ s.now - t) →
      exec .busy s = .next { s with trace := s.trace ++ [.busy false] })

/-- 60_exceptions R223, TIME: before and after INIT, now grows by d and nothing else changes; d = 0 is refused. -/
def Obligations.TimeOnlyAdvancesNow : Prop :=
  ∀ (s : State) (d : Nat), s.running = true →
    (1 ≤ d → exec (.time d) s = .next { s with now := s.now + d }) ∧
    (d = 0 → exec (.time d) s = .next { s with refused := true })

/-- 44_completion R191 [derived there]: in a block that meets the frame invariant, with RESET_GAP ≥ 1, the Transmission State
changes only from Idle to InFlight by SH_ARM, from InFlight to ResetGap by IRQ_COMPLETION, and from ResetGap to Idle by TIME. It
speaks of the operations of programs and of the scheduler, not of SWAP or a port primitive taken as a step of its own (log 15). -/
def Obligations.OnlyThreeTransmissionTransitions : Prop :=
  ∀ (s t : State) (i : Instr), FrameInv s → 1 ≤ s.params.resetGap → (i.issuer = .program ∨ i.issuer = .scheduler) →
    exec i s = .next t →
    t.txState = s.txState ∨
    (s.txState = .idle ∧ t.txState = .inFlight ∧ i = .shArm) ∨
    (s.txState = .inFlight ∧ t.txState = .resetGap ∧ i = .irqCompletion) ∨
    (s.txState = .resetGap ∧ t.txState = .idle ∧ ∃ d, i = .time d)

/-! ## Frames: who writes what -/

/-- Every byte of memory outside the one an operation stores to reads as before; INIT stores to its block; every other operation
stores nothing (20_memory R75: only WRITE_DRAW, MEM_WRITE and INIT write memory). -/
def Obligations.MemoryChangesOnlyWhereStored : Prop :=
  ∀ (s t : State) (i : Instr), exec i s = .next t →
    (∀ off val, i = .writeDraw off val → ∀ a, a ≠ (s.drawAddr off).toNat → Memory.read t.mem a = Memory.read s.mem a) ∧
    (∀ addr val, i = .memWrite addr val → ∀ a, a ≠ addr.toNat → Memory.read t.mem a = Memory.read s.mem a) ∧
    (∀ n base size rate, i = .init n base size rate →
      ∀ a, ¬(base.toNat ≤ a ∧ a < base.toNat + 2 * (24 * n)) → Memory.read t.mem a = Memory.read s.mem a) ∧
    ((∀ off val, i ≠ .writeDraw off val) → (∀ addr val, i ≠ .memWrite addr val) →
      (∀ n base size rate, i ≠ .init n base size rate) → t.mem = s.mem)

/-- 10_state R32: INIT writes the configuration and nothing writes it afterwards. The same holds of the output enable (R41), the
timer's rate (R43), the interrupt enable (R50) and the descriptor fields no transfer writes (R48). No step writes the
parameters. -/
def Obligations.OnlyInitConfigures : Prop :=
  ∀ (s t : State) (i : Instr), exec i s = .next t →
    t.params = s.params ∧
    ((∀ n base size rate, i ≠ .init n base size rate) ∨ s.initialized = true →
      t.initialized = s.initialized ∧ t.cfg = s.cfg ∧ t.port.oe = s.port.oe ∧ t.tmr.rate = s.tmr.rate ∧
      t.irq.en = s.irq.en ∧
      ∀ x : Chan, (t.ch x).konst = (s.ch x).konst ∧ (t.ch x).soff = (s.ch x).soff ∧ (t.ch x).slast = (s.ch x).slast ∧
        (t.ch x).dst = (s.ch x).dst ∧ (t.ch x).biter = (s.ch x).biter ∧ (t.ch x).dreq = (s.ch x).dreq ∧
        (t.ch x).intmaj = (s.ch x).intmaj ∧ (t.ch x).trig = (s.ch x).trig)

/-- Once initialised: only SWAP and SH_SWAP write the roles (10_state R33); only SH_ARM and IRQ_COMPLETION write InFlight (R35);
only IRQ_COMPLETION writes the timestamp (R36); only TIME writes now, and only by increasing it (R37). -/
def Obligations.WritersOfTheTransmissionState : Prop :=
  ∀ (s t : State) (i : Instr), exec i s = .next t → s.initialized = true →
    (i ≠ .swap → i ≠ .shSwap → t.front = s.front ∧ t.draw = s.draw) ∧
    (i ≠ .shArm → i ≠ .irqCompletion → t.inFlight = s.inFlight) ∧
    (i ≠ .irqCompletion → t.completedAt = s.completedAt) ∧
    ((∀ d, i ≠ .time d) → t.now = s.now) ∧ s.now ≤ t.now

/-- Once initialised: the data register is written only by the channels and the port primitives (10_state R38); the timer's run
bit only by SH_ALIGN_STOP and SH_ARM, its phase only by the edges (R43, R44); an edge flag only by its own edge, by the channels
and by SH_ARM (R46). -/
def Obligations.WritersOfPortTimerAndFlags : Prop :=
  ∀ (s t : State) (i : Instr), exec i s = .next t → s.initialized = true →
    (i ≠ .dmaA → i ≠ .dmaB → i ≠ .dmaC → (∀ v, i ≠ .portData v ∧ i ≠ .portSet v ∧ i ≠ .portClear v) → t.port = s.port) ∧
    (i ≠ .shAlignStop → i ≠ .shArm → t.tmr.run = s.tmr.run) ∧
    (i ≠ .edgeRise → i ≠ .edgeFall0 → i ≠ .edgeFall1 → t.tmr.phase = s.tmr.phase) ∧
    (i ≠ .dmaA → i ≠ .dmaB → i ≠ .dmaC → i ≠ .shArm →
      (i ≠ .edgeRise → t.ef.rise = s.ef.rise) ∧ (i ≠ .edgeFall0 → t.ef.fall0 = s.ef.fall0) ∧
      (i ≠ .edgeFall1 → t.ef.fall1 = s.ef.fall1))

/-- 10_state R49, once initialised: only SH_SWAP (channel B's source) and SH_ARM (done and erq) write descriptor fields besides a
channel's own transfer, which writes only that channel's src, citer, done and erq. -/
def Obligations.WritersOfTheDescriptors : Prop :=
  ∀ (s t : State) (i : Instr), exec i s = .next t → s.initialized = true →
    (i ≠ .dmaA → i ≠ .shArm → t.chA = s.chA) ∧
    (i ≠ .dmaB → i ≠ .shArm → i ≠ .shSwap → t.chB = s.chB) ∧
    (i ≠ .dmaC → i ≠ .shArm → t.chC = s.chC) ∧
    (i = .shSwap → t.chB = { s.chB with src := t.chB.src }) ∧
    (i = .shArm → t.chA = { s.chA with done := t.chA.done, erq := t.chA.erq } ∧
      t.chB = { s.chB with done := t.chB.done, erq := t.chB.erq } ∧
      t.chC = { s.chC with done := t.chC.done, erq := t.chC.erq }) ∧
    (i = .dmaA → t.chA = { s.chA with src := t.chA.src, citer := t.chA.citer, done := t.chA.done, erq := t.chA.erq }) ∧
    (i = .dmaB → t.chB = { s.chB with src := t.chB.src, citer := t.chB.citer, done := t.chB.done, erq := t.chB.erq }) ∧
    (i = .dmaC → t.chC = { s.chC with src := t.chC.src, citer := t.chC.citer, done := t.chC.done, erq := t.chC.erq })

/-- Once initialised: the pending bit is written only by the channels and the handler (10_state R50), the mask only by SH_MASK and
SH_ARM (R51), HOST's position only by SHOW and its micro-steps (R52); no operation writes the program or the schedule. -/
def Obligations.WritersOfInterruptAndHostPhase : Prop :=
  ∀ (s t : State) (i : Instr), exec i s = .next t → s.initialized = true →
    (i ≠ .dmaA → i ≠ .dmaB → i ≠ .dmaC → i ≠ .irqCompletion → t.irq = s.irq) ∧
    (i ≠ .shMask → i ≠ .shArm → t.imask = s.imask) ∧
    (i ≠ .showOp → i ≠ .shWaitInFlight → i ≠ .shSwap → i ≠ .shWaitGap → i ≠ .shMask → i ≠ .shAlignStop → i ≠ .shArm →
      t.hostPhase = s.hostPhase) ∧
    t.program = s.program ∧ t.turns = s.turns

/-- 10_state R53, R54: over a step the trace is only appended to, by at most one event, and the faults are never cleared. The
refusal mark, once set, has no step after it, so it is never cleared either. -/
def Obligations.RecordsAreOnlyAppended : Prop :=
  ∀ s t : State, step s = .next t →
    (∃ es, t.trace = s.trace ++ es ∧ es.length ≤ 1) ∧ (∃ fs, t.faults = s.faults ++ fs) ∧
    (s.refused = true → t.refused = true)

/-- 00_scope R20 and 44_completion R198 [derived there]: once initialised, no operation of HOST's program writes the port, the
timer, the edge flags, a descriptor, the interrupt state, the roles or the transmission state. -/
def Obligations.HostProgramCannotReachThePipeline : Prop :=
  ∀ (s t : State) (i : Instr), exec i s = .next t → s.initialized = true → i.issuer = .program →
    t.port = s.port ∧ t.tmr = s.tmr ∧ t.ef = s.ef ∧ t.chA = s.chA ∧ t.chB = s.chB ∧ t.chC = s.chC ∧ t.irq = s.irq ∧
    t.imask = s.imask ∧ t.front = s.front ∧ t.draw = s.draw ∧ t.inFlight = s.inFlight ∧ t.completedAt = s.completedAt

/-- 20_memory R84: once initialised, no operation changes a byte of the front half. -/
def Obligations.NoOperationWritesTheFrontHalf : Prop :=
  ∀ (s t : State) (i : Instr), exec i s = .next t → s.initialized = true → Geometry s →
    ∀ a : Addr, s.inFront a = true → Memory.read t.mem a.toNat = Memory.read s.mem a.toNat

/-! ## Before INIT and at reset -/

/-- 70_reset_and_hazards R240: the values power-on gives. What the spec leaves as draws is not stated. -/
def Obligations.PowerOnValues : Prop :=
  State.reset.initialized = false ∧ State.reset.cfg = none ∧ State.reset.inFlight = false ∧
  State.reset.completedAt = none ∧ State.reset.tmr.run = false ∧ State.reset.dmaErq = 0b000#3 ∧
  State.reset.irq.en = false ∧ State.reset.imask = false ∧ State.reset.hostPhase = .ready ∧ State.reset.faults = [] ∧
  State.reset.refused = false ∧ State.reset.trace = []

/-- 70_reset_and_hazards R241 [derived there]: before INIT every HOST operation but INIT faults with F_NOT_INIT, and every other
operation but TIME (of SHOW, the timer, the channels and the handler, and SWAP and the port primitives, log 15) is not enabled and
waits (log 1). -/
def Obligations.BeforeInitOnlyInitAndTimeAct : Prop :=
  ∀ (s : State) (i : Instr), s.running = true → Quiet s → s.initialized = false →
    (i.issuer = .program → (∀ n base size rate, i ≠ .init n base size rate) →
      exec i s = .next (s.faulted .notInit .none .host i.code)) ∧
    (i.issuer ≠ .program → (∀ d, i ≠ .time d) → exec i s = .next s)

/-! ## Invariants -/

/-- The power-on state meets the frame invariant, its memory has the canonical form, and the open parameters meet the constraints
of 00_scope R10. -/
def Obligations.ResetMeetsTheInvariants : Prop :=
  FrameInv State.reset ∧ Memory.wf State.reset.mem = true ∧ State.reset.params.wf = true

/-- Every step keeps the canonical form of memory (the model's own form, log 9), in every state, under every mode and schedule. -/
def Obligations.EveryStepKeepsMemoryCanonical : Prop :=
  ∀ s t : State, Memory.wf s.mem = true → step s = .next t → Memory.wf t.mem = true

/-- 10_state R33, R57 item 1 [derived there]: every step keeps the two roles on the two halves of a block that does not wrap,
under every mode and schedule. -/
def Obligations.EveryStepKeepsTheGeometry : Prop :=
  ∀ s t : State, Geometry s → step s = .next t → Geometry t

/-- The frame invariant is kept by every step, under ALIGN_MODE = ASSUMED and either WINDOW_MODE, whatever the schedule and the
program: the three channels stay in step with the timer, the counts, source, flags, lines and interrupt go together as
42_transmit_pipeline R159, R160, 43_sequencer R171 to R176 and 44_completion R196 derive. -/
def Obligations.EveryStepKeepsTheFrameInvariant : Prop :=
  ∀ s t : State, FrameInv s → step s = .next t → FrameInv t

/-- 10_state R57 [derived there]: its five items hold in every state that meets the frame invariant. -/
def Obligations.FrameInvariantGivesTheFiveItems : Prop :=
  ∀ s : State, FrameInv s →
    (s.initialized = true →
      (s.front = s.base ∧ s.draw = s.base + BitVec.ofNat 32 s.len) ∨
      (s.front = s.base + BitVec.ofNat 32 s.len ∧ s.draw = s.base)) ∧
    (s.initialized = true → ∀ x : Chan, 1 ≤ (s.ch x).citer ∧ (s.ch x).citer ≤ (s.ch x).biter ∧ (s.ch x).biter = s.len) ∧
    (s.chB.erq = true → s.chB.src = s.front + BitVec.ofNat 32 (s.len - s.chB.citer)) ∧
    (s.inFlight = true → s.chC.erq = true ∨ s.irq.pend = true) ∧
    (s.inFlight = false → (s.hostPhase = .ready ∨ s.hostPhase = .shWaitInFlight) → s.dmaErq = 0b000#3)

/-- 42_transmit_pipeline R160, R164 and 44_completion R196 [derived there]: in a state that meets the frame invariant at most one
channel is enabled; channel B, when armed, reads a byte of the front half inside the block; after INIT every line is driven and
low whenever no channel is armed, so between two frames; and SH_ARM stands only where RESET_GAP has passed since the last
completion. -/
def Obligations.TheFrameInvariantOrdersChannelsAndLines : Prop :=
  ∀ s : State, FrameInv s →
    (∀ x y : Chan, s.dmaReady x = true → s.dmaReady y = true → x = y) ∧
    (s.chB.erq = true → s.inFront s.chB.src = true ∧ s.inBlock s.chB.src = true) ∧
    (s.initialized = true → s.dmaErq = 0b000#3 → ∀ i : Fin 8, s.lineLevel i = some false) ∧
    (s.hostPhase = .shArm → ∀ c, s.completedAt = some c → s.params.resetGap ≤ s.now - c)

/-- 44_completion R194 [derived there], the waveform of a frame: from the state SH_ARM leaves, over any number of steps of any
agents in which the handler has not yet run, the port events are those before the frame followed by the frame's events sent so
far, in order: for each byte of the front half, SET 0xFF, DATA byte, CLEAR 0xFF. When the interrupt is pending all 3L have been
sent. -/
def Obligations.FrameWaveformIsTheFrontHalf : Prop :=
  ∀ (n : Nat) (s t : State), FrameInv s → Launched s → Host.Core.run Sys2Proof.core n s = .next t →
    t.trace.filter Event.isIrq = s.trace.filter Event.isIrq →
    t.frontBytes = s.frontBytes ∧
    t.trace.filter Event.isPort = s.trace.filter Event.isPort ++ (frameEvents s.frontBytes).take t.sentEvents ∧
    (t.irq.pend = true →
      t.trace.filter Event.isPort = s.trace.filter Event.isPort ++ frameEvents s.frontBytes)

/-- 43_sequencer R178 [derived there], the first edge of a launch in HI_ONE, as a stop there under ALIGN_MODE = ANY leaves one. From a
state in HI_ONE with the lines low, no edge flag set and all three channels armed with count L, EDGE_FALL1 and then DMA_C emit
only a CLEAR of lines that are already low, so bit-time 0 has no pulse; the phase is then TAIL, and C has one transfer fewer left
than A and B. Nothing is said of the later steps. -/
def Obligations.AMisalignedLaunchLosesItsFirstPulse : Prop :=
  ∀ s : State, s.running = true → s.tmr.run = true → s.tmr.phase = .hiOne → Programmed s → 2 ≤ s.len →
    s.chA.erq = true → s.chB.erq = true → s.chC.erq = true →
    s.chA.citer = s.len → s.chB.citer = s.len → s.chC.citer = s.len →
    s.ef = { rise := false, fall0 := false, fall1 := false } → s.port.data = 0x00#8 →
    ∃ t, execAll [.edgeFall1, .dmaC] s = .next t ∧
      t.trace = s.trace ++ [.port .dmaC .clear 0xFF#8 0x00#8] ∧ t.port.data = 0x00#8 ∧ t.tmr.phase = .tail ∧
      t.chC.citer = s.len - 1 ∧ t.chA.citer = s.len ∧ t.chB.citer = s.len ∧ t.dmaErq = 0b111#3

/-! ## The pixel-bit format and the waveforms -/

/-- 30_encoding R94 [derived there]: bit s of the byte is strip s's bit, and the map from eight bits to a byte is a bijection. -/
def Obligations.LanesAndBytesAreInBijection : Prop :=
  (∀ (bits : Vector Bool 8) (s : Fin 8), stripBit (packLanes bits) s = bits[s]) ∧
  (∀ b : Byte, packLanes (unpackLanes b) = b) ∧ (∀ bits : Vector Bool 8, unpackLanes (packLanes bits) = bits)

/-- 30_encoding R104, FILL_DRAW, and 41_buffer_manager R140: executed with no other agent between its writes, FILL_DRAW leaves
every byte of the draw half at its value, the front half as it was, and raises no fault. -/
def Obligations.FillDrawFillsTheDrawHalf : Prop :=
  ∀ (s : State) (b : Byte), s.running = true → s.hostPhase = .ready → s.initialized = true → Geometry s →
    Memory.wf s.mem = true →
    ∃ t, execAll (expandFillDraw s.len b) s = .next t ∧ t.drawBytes = List.replicate s.len b ∧
      t.frontBytes = s.frontBytes ∧ t = { s with mem := t.mem }
end

