-- ==== Sys2Proof/Laws/Memory.lean ====
section
/-! SUPPORT. The laws of memory: reading after a write and after a zero fill, and that every operation keeps the canonical form. -/

namespace Sys2Proof.Machine

@[simp] theorem Memory.read_nil (a : Nat) : Memory.read [] a = unlistedByte := rfl

/-- An address below every listed one reads as unlisted. -/
theorem Memory.read_of_all_gt {m : Memory} {a : Nat} (h : m.all (fun d => decide (a < d.1)) = true) :
    Memory.read m a = unlistedByte := by
  induction m with
  | nil => rfl
  | cons c m ih =>
    simp only [List.all_cons, Bool.and_eq_true, decide_eq_true_eq] at h
    rw [Memory.read, if_neg (by omega), ih h.2]

theorem Memory.wf_cons {c : Host.Cell} {m : Memory} :
    Memory.wf (c :: m) = true ↔
      c.2 ≠ unlistedByte ∧ c.1 < 2 ^ 32 ∧ m.all (fun d => decide (c.1 < d.1)) = true ∧ Memory.wf m = true := by
  simp [Memory.wf, and_assoc]

theorem Memory.read_cell_other {a b : Nat} {v : Byte} {m : Memory} (h : a ≠ b) :
    Memory.read (Memory.cell a v m) b = Memory.read m b := by
  unfold Memory.cell
  split
  · rfl
  · exact if_neg h

/-- A read of the address just written, in canonical memory, gives the byte written. -/
theorem Memory.read_write_same {m : Memory} (a : Nat) (v : Byte) (h : Memory.wf m = true) :
    Memory.read (Memory.write m a v) a = v := by
  have cell_same : ∀ m' : Memory, Memory.read m' a = unlistedByte → Memory.read (Memory.cell a v m') a = v := by
    intro m' hm
    unfold Memory.cell
    split
    · rw [hm, ‹v = unlistedByte›]
    · exact if_pos rfl
  induction m with
  | nil => exact cell_same [] rfl
  | cons c m ih =>
    obtain ⟨_, _, hgt, hm⟩ := Memory.wf_cons.mp h
    unfold Memory.write
    split
    · refine cell_same _ (Memory.read_of_all_gt ?_)
      simp only [List.all_cons, Bool.and_eq_true, decide_eq_true_eq, List.all_eq_true] at hgt ⊢
      exact ⟨‹_›, fun d hd => Nat.lt_trans ‹a < c.1› (hgt d hd)⟩
    · split
      · subst a
        exact cell_same _ (Memory.read_of_all_gt hgt)
      · rw [Memory.read, if_neg (fun e => ‹a ≠ c.1› e.symm), ih hm]

/-- A write leaves every other address alone. -/
theorem Memory.read_write_other {m : Memory} {a b : Nat} (v : Byte) (h : a ≠ b) :
    Memory.read (Memory.write m a v) b = Memory.read m b := by
  induction m with
  | nil => exact Memory.read_cell_other h
  | cons c m ih =>
    unfold Memory.write
    split
    · exact Memory.read_cell_other h
    · split
      · subst a
        rw [Memory.read_cell_other h, Memory.read, if_neg h]
      · rw [Memory.read, Memory.read, ih]

/-- After a zero fill every byte of the range reads 0x00, and every other byte reads as before. -/
theorem Memory.read_zeroFill (m : Memory) (lo hi a : Nat) :
    Memory.read (Memory.zeroFill m lo hi) a = if lo ≤ a ∧ a < hi then unlistedByte else Memory.read m a := by
  induction m with
  | nil => simp [Memory.zeroFill]
  | cons c m ih =>
    unfold Memory.zeroFill at ih ⊢
    rw [List.filter_cons]
    split
    · rename_i hc
      simp only [Bool.not_eq_true', Bool.and_eq_false_iff, decide_eq_false_iff_not] at hc
      simp only [Memory.read]
      split
      · subst a
        rw [if_neg (by omega)]
      · exact ih
    · rename_i hc
      simp only [Bool.not_eq_true', Bool.not_eq_false, Bool.and_eq_true, decide_eq_true_eq] at hc
      rw [ih]
      split
      · rfl
      · rw [Memory.read, if_neg (by omega)]

theorem Memory.all_cell {p : Host.Cell → Bool} {a : Nat} {v : Byte} {m : Memory} (hp : p (a, v) = true)
    (h : m.all p = true) : (Memory.cell a v m).all p = true := by
  unfold Memory.cell
  split
  · exact h
  · simp [hp, h]

theorem Memory.all_write {p : Host.Cell → Bool} {a : Nat} {v : Byte} {m : Memory} (hp : p (a, v) = true)
    (h : m.all p = true) : (Memory.write m a v).all p = true := by
  induction m with
  | nil => exact Memory.all_cell hp h
  | cons c m ih =>
    have hc := h
    simp only [List.all_cons, Bool.and_eq_true] at hc
    unfold Memory.write
    split
    · exact Memory.all_cell hp h
    · split
      · exact Memory.all_cell hp hc.2
      · simp [hc.1, ih hc.2]

theorem Memory.wf_cell {a : Nat} {v : Byte} {m : Memory} (ha : a < 2 ^ 32) (hgt : m.all (fun d => decide (a < d.1)) = true)
    (h : Memory.wf m = true) : Memory.wf (Memory.cell a v m) = true := by
  unfold Memory.cell
  split
  · exact h
  · exact Memory.wf_cons.mpr ⟨‹_›, ha, hgt, h⟩

/-- A write at an address of the space keeps the canonical form. -/
theorem Memory.wf_write {m : Memory} {a : Nat} (v : Byte) (ha : a < 2 ^ 32) (h : Memory.wf m = true) :
    Memory.wf (Memory.write m a v) = true := by
  induction m with
  | nil => exact Memory.wf_cell ha rfl rfl
  | cons c m ih =>
    obtain ⟨hne, hlt, hgt, hm⟩ := Memory.wf_cons.mp h
    unfold Memory.write
    split
    · refine Memory.wf_cell ha ?_ h
      simp only [List.all_cons, Bool.and_eq_true, decide_eq_true_eq, List.all_eq_true] at hgt ⊢
      exact ⟨‹_›, fun d hd => Nat.lt_trans ‹a < c.1› (hgt d hd)⟩
    · split
      · subst a
        exact Memory.wf_cell ha hgt hm
      · exact Memory.wf_cons.mpr ⟨hne, hlt, Memory.all_write (by simp; omega) hgt, ih hm⟩

/-- A zero fill keeps the canonical form. -/
theorem Memory.wf_zeroFill {m : Memory} (lo hi : Nat) (h : Memory.wf m = true) :
    Memory.wf (Memory.zeroFill m lo hi) = true := by
  induction m with
  | nil => rfl
  | cons c m ih =>
    obtain ⟨hne, hlt, hgt, hm⟩ := Memory.wf_cons.mp h
    unfold Memory.zeroFill at ih ⊢
    rw [List.filter_cons]
    split
    · refine Memory.wf_cons.mpr ⟨hne, hlt, ?_, ih hm⟩
      rw [List.all_eq_true] at hgt ⊢
      exact fun d hd => hgt d (List.mem_filter.mp hd).1
    · exact ih hm

end Sys2Proof.Machine
end

