-- ==== Sys2Proof/Laws/State.lean ====
section
/-! SUPPORT. For each named update of the state, the value of each field after it, so that no later proof unfolds a record. -/

namespace Sys2Proof.Machine

/-! ## Raising a fault, refusing -/

@[simp] theorem raise_params (s : State) (i c n) : (raise s i c n).params = s.params := rfl
@[simp] theorem raise_initialized (s : State) (i c n) : (raise s i c n).initialized = s.initialized := rfl
@[simp] theorem raise_cfg (s : State) (i c n) : (raise s i c n).cfg = s.cfg := rfl
@[simp] theorem raise_front (s : State) (i c n) : (raise s i c n).front = s.front := rfl
@[simp] theorem raise_draw (s : State) (i c n) : (raise s i c n).draw = s.draw := rfl
@[simp] theorem raise_mem (s : State) (i c n) : (raise s i c n).mem = s.mem := rfl
@[simp] theorem raise_inFlight (s : State) (i c n) : (raise s i c n).inFlight = s.inFlight := rfl
@[simp] theorem raise_completedAt (s : State) (i c n) : (raise s i c n).completedAt = s.completedAt := rfl
@[simp] theorem raise_now (s : State) (i c n) : (raise s i c n).now = s.now := rfl
@[simp] theorem raise_port (s : State) (i c n) : (raise s i c n).port = s.port := rfl
@[simp] theorem raise_tmr (s : State) (i c n) : (raise s i c n).tmr = s.tmr := rfl
@[simp] theorem raise_ef (s : State) (i c n) : (raise s i c n).ef = s.ef := rfl
@[simp] theorem raise_chA (s : State) (i c n) : (raise s i c n).chA = s.chA := rfl
@[simp] theorem raise_chB (s : State) (i c n) : (raise s i c n).chB = s.chB := rfl
@[simp] theorem raise_chC (s : State) (i c n) : (raise s i c n).chC = s.chC := rfl
@[simp] theorem raise_irq (s : State) (i c n) : (raise s i c n).irq = s.irq := rfl
@[simp] theorem raise_imask (s : State) (i c n) : (raise s i c n).imask = s.imask := rfl
@[simp] theorem raise_hostPhase (s : State) (i c n) : (raise s i c n).hostPhase = s.hostPhase := rfl
@[simp] theorem raise_faults (s : State) (i c n) : (raise s i c n).faults = s.faults ++ [{ code := c, info := n, agent := i.agent, op := i.code, time := s.now }] := rfl
@[simp] theorem raise_refused (s : State) (i c n) : (raise s i c n).refused = s.refused := rfl
@[simp] theorem raise_trace (s : State) (i c n) : (raise s i c n).trace = s.trace := rfl
@[simp] theorem raise_program (s : State) (i c n) : (raise s i c n).program = s.program := rfl
@[simp] theorem raise_turns (s : State) (i c n) : (raise s i c n).turns = s.turns := rfl
@[simp] theorem raise_draws (s : State) (i c n) : (raise s i c n).draws = s.draws := rfl

/-! ## Refusing a step -/

@[simp] theorem refuse_params (s : State) : (refuse s).params = s.params := rfl
@[simp] theorem refuse_initialized (s : State) : (refuse s).initialized = s.initialized := rfl
@[simp] theorem refuse_cfg (s : State) : (refuse s).cfg = s.cfg := rfl
@[simp] theorem refuse_front (s : State) : (refuse s).front = s.front := rfl
@[simp] theorem refuse_draw (s : State) : (refuse s).draw = s.draw := rfl
@[simp] theorem refuse_mem (s : State) : (refuse s).mem = s.mem := rfl
@[simp] theorem refuse_inFlight (s : State) : (refuse s).inFlight = s.inFlight := rfl
@[simp] theorem refuse_completedAt (s : State) : (refuse s).completedAt = s.completedAt := rfl
@[simp] theorem refuse_now (s : State) : (refuse s).now = s.now := rfl
@[simp] theorem refuse_port (s : State) : (refuse s).port = s.port := rfl
@[simp] theorem refuse_tmr (s : State) : (refuse s).tmr = s.tmr := rfl
@[simp] theorem refuse_ef (s : State) : (refuse s).ef = s.ef := rfl
@[simp] theorem refuse_chA (s : State) : (refuse s).chA = s.chA := rfl
@[simp] theorem refuse_chB (s : State) : (refuse s).chB = s.chB := rfl
@[simp] theorem refuse_chC (s : State) : (refuse s).chC = s.chC := rfl
@[simp] theorem refuse_irq (s : State) : (refuse s).irq = s.irq := rfl
@[simp] theorem refuse_imask (s : State) : (refuse s).imask = s.imask := rfl
@[simp] theorem refuse_hostPhase (s : State) : (refuse s).hostPhase = s.hostPhase := rfl
@[simp] theorem refuse_faults (s : State) : (refuse s).faults = s.faults := rfl
@[simp] theorem refuse_refused (s : State) : (refuse s).refused = true := rfl
@[simp] theorem refuse_trace (s : State) : (refuse s).trace = s.trace := rfl
@[simp] theorem refuse_program (s : State) : (refuse s).program = s.program := rfl
@[simp] theorem refuse_turns (s : State) : (refuse s).turns = s.turns := rfl
@[simp] theorem refuse_draws (s : State) : (refuse s).draws = s.draws := rfl

/-! ## Emitting an event -/

@[simp] theorem State.emit_params (s : State) (e) : (s.emit e).params = s.params := rfl
@[simp] theorem State.emit_initialized (s : State) (e) : (s.emit e).initialized = s.initialized := rfl
@[simp] theorem State.emit_cfg (s : State) (e) : (s.emit e).cfg = s.cfg := rfl
@[simp] theorem State.emit_front (s : State) (e) : (s.emit e).front = s.front := rfl
@[simp] theorem State.emit_draw (s : State) (e) : (s.emit e).draw = s.draw := rfl
@[simp] theorem State.emit_mem (s : State) (e) : (s.emit e).mem = s.mem := rfl
@[simp] theorem State.emit_inFlight (s : State) (e) : (s.emit e).inFlight = s.inFlight := rfl
@[simp] theorem State.emit_completedAt (s : State) (e) : (s.emit e).completedAt = s.completedAt := rfl
@[simp] theorem State.emit_now (s : State) (e) : (s.emit e).now = s.now := rfl
@[simp] theorem State.emit_port (s : State) (e) : (s.emit e).port = s.port := rfl
@[simp] theorem State.emit_tmr (s : State) (e) : (s.emit e).tmr = s.tmr := rfl
@[simp] theorem State.emit_ef (s : State) (e) : (s.emit e).ef = s.ef := rfl
@[simp] theorem State.emit_chA (s : State) (e) : (s.emit e).chA = s.chA := rfl
@[simp] theorem State.emit_chB (s : State) (e) : (s.emit e).chB = s.chB := rfl
@[simp] theorem State.emit_chC (s : State) (e) : (s.emit e).chC = s.chC := rfl
@[simp] theorem State.emit_irq (s : State) (e) : (s.emit e).irq = s.irq := rfl
@[simp] theorem State.emit_imask (s : State) (e) : (s.emit e).imask = s.imask := rfl
@[simp] theorem State.emit_hostPhase (s : State) (e) : (s.emit e).hostPhase = s.hostPhase := rfl
@[simp] theorem State.emit_faults (s : State) (e) : (s.emit e).faults = s.faults := rfl
@[simp] theorem State.emit_refused (s : State) (e) : (s.emit e).refused = s.refused := rfl
@[simp] theorem State.emit_trace (s : State) (e) : (s.emit e).trace = s.trace ++ [e] := rfl
@[simp] theorem State.emit_program (s : State) (e) : (s.emit e).program = s.program := rfl
@[simp] theorem State.emit_turns (s : State) (e) : (s.emit e).turns = s.turns := rfl
@[simp] theorem State.emit_draws (s : State) (e) : (s.emit e).draws = s.draws := rfl

/-! ## Writing the port -/

@[simp] theorem State.portWrite_params (s : State) (g r v) : (s.portWrite g r v).params = s.params := rfl
@[simp] theorem State.portWrite_initialized (s : State) (g r v) : (s.portWrite g r v).initialized = s.initialized := rfl
@[simp] theorem State.portWrite_cfg (s : State) (g r v) : (s.portWrite g r v).cfg = s.cfg := rfl
@[simp] theorem State.portWrite_front (s : State) (g r v) : (s.portWrite g r v).front = s.front := rfl
@[simp] theorem State.portWrite_draw (s : State) (g r v) : (s.portWrite g r v).draw = s.draw := rfl
@[simp] theorem State.portWrite_mem (s : State) (g r v) : (s.portWrite g r v).mem = s.mem := rfl
@[simp] theorem State.portWrite_inFlight (s : State) (g r v) : (s.portWrite g r v).inFlight = s.inFlight := rfl
@[simp] theorem State.portWrite_completedAt (s : State) (g r v) : (s.portWrite g r v).completedAt = s.completedAt := rfl
@[simp] theorem State.portWrite_now (s : State) (g r v) : (s.portWrite g r v).now = s.now := rfl
@[simp] theorem State.portWrite_port (s : State) (g r v) : (s.portWrite g r v).port = { s.port with data := portAfter s.port.data r v } := rfl
@[simp] theorem State.portWrite_tmr (s : State) (g r v) : (s.portWrite g r v).tmr = s.tmr := rfl
@[simp] theorem State.portWrite_ef (s : State) (g r v) : (s.portWrite g r v).ef = s.ef := rfl
@[simp] theorem State.portWrite_chA (s : State) (g r v) : (s.portWrite g r v).chA = s.chA := rfl
@[simp] theorem State.portWrite_chB (s : State) (g r v) : (s.portWrite g r v).chB = s.chB := rfl
@[simp] theorem State.portWrite_chC (s : State) (g r v) : (s.portWrite g r v).chC = s.chC := rfl
@[simp] theorem State.portWrite_irq (s : State) (g r v) : (s.portWrite g r v).irq = s.irq := rfl
@[simp] theorem State.portWrite_imask (s : State) (g r v) : (s.portWrite g r v).imask = s.imask := rfl
@[simp] theorem State.portWrite_hostPhase (s : State) (g r v) : (s.portWrite g r v).hostPhase = s.hostPhase := rfl
@[simp] theorem State.portWrite_faults (s : State) (g r v) : (s.portWrite g r v).faults = s.faults := rfl
@[simp] theorem State.portWrite_refused (s : State) (g r v) : (s.portWrite g r v).refused = s.refused := rfl
@[simp] theorem State.portWrite_trace (s : State) (g r v) : (s.portWrite g r v).trace = s.trace ++ [.port g r v (portAfter s.port.data r v)] := rfl
@[simp] theorem State.portWrite_program (s : State) (g r v) : (s.portWrite g r v).program = s.program := rfl
@[simp] theorem State.portWrite_turns (s : State) (g r v) : (s.portWrite g r v).turns = s.turns := rfl
@[simp] theorem State.portWrite_draws (s : State) (g r v) : (s.portWrite g r v).draws = s.draws := rfl

/-! ## Writing an edge flag -/

@[simp] theorem State.putFlag_params (s : State) (e v) : (s.putFlag e v).params = s.params := by cases e <;> rfl
@[simp] theorem State.putFlag_initialized (s : State) (e v) : (s.putFlag e v).initialized = s.initialized := by cases e <;> rfl
@[simp] theorem State.putFlag_cfg (s : State) (e v) : (s.putFlag e v).cfg = s.cfg := by cases e <;> rfl
@[simp] theorem State.putFlag_front (s : State) (e v) : (s.putFlag e v).front = s.front := by cases e <;> rfl
@[simp] theorem State.putFlag_draw (s : State) (e v) : (s.putFlag e v).draw = s.draw := by cases e <;> rfl
@[simp] theorem State.putFlag_mem (s : State) (e v) : (s.putFlag e v).mem = s.mem := by cases e <;> rfl
@[simp] theorem State.putFlag_inFlight (s : State) (e v) : (s.putFlag e v).inFlight = s.inFlight := by cases e <;> rfl
@[simp] theorem State.putFlag_completedAt (s : State) (e v) : (s.putFlag e v).completedAt = s.completedAt := by cases e <;> rfl
@[simp] theorem State.putFlag_now (s : State) (e v) : (s.putFlag e v).now = s.now := by cases e <;> rfl
@[simp] theorem State.putFlag_port (s : State) (e v) : (s.putFlag e v).port = s.port := by cases e <;> rfl
@[simp] theorem State.putFlag_tmr (s : State) (e v) : (s.putFlag e v).tmr = s.tmr := by cases e <;> rfl
@[simp] theorem State.putFlag_chA (s : State) (e v) : (s.putFlag e v).chA = s.chA := by cases e <;> rfl
@[simp] theorem State.putFlag_chB (s : State) (e v) : (s.putFlag e v).chB = s.chB := by cases e <;> rfl
@[simp] theorem State.putFlag_chC (s : State) (e v) : (s.putFlag e v).chC = s.chC := by cases e <;> rfl
@[simp] theorem State.putFlag_irq (s : State) (e v) : (s.putFlag e v).irq = s.irq := by cases e <;> rfl
@[simp] theorem State.putFlag_imask (s : State) (e v) : (s.putFlag e v).imask = s.imask := by cases e <;> rfl
@[simp] theorem State.putFlag_hostPhase (s : State) (e v) : (s.putFlag e v).hostPhase = s.hostPhase := by cases e <;> rfl
@[simp] theorem State.putFlag_faults (s : State) (e v) : (s.putFlag e v).faults = s.faults := by cases e <;> rfl
@[simp] theorem State.putFlag_refused (s : State) (e v) : (s.putFlag e v).refused = s.refused := by cases e <;> rfl
@[simp] theorem State.putFlag_trace (s : State) (e v) : (s.putFlag e v).trace = s.trace := by cases e <;> rfl
@[simp] theorem State.putFlag_program (s : State) (e v) : (s.putFlag e v).program = s.program := by cases e <;> rfl
@[simp] theorem State.putFlag_turns (s : State) (e v) : (s.putFlag e v).turns = s.turns := by cases e <;> rfl
@[simp] theorem State.putFlag_draws (s : State) (e v) : (s.putFlag e v).draws = s.draws := by cases e <;> rfl

theorem State.flag_putFlag (s : State) (e f : Edge) (v : Bool) :
    (s.putFlag e v).flag f = if f = e then v else s.flag f := by cases e <;> cases f <;> rfl

/-! ## Clearing an edge flag -/

@[simp] theorem State.clearFlag_params (s : State) (e) : (s.clearFlag e).params = s.params := by cases e <;> rfl
@[simp] theorem State.clearFlag_initialized (s : State) (e) : (s.clearFlag e).initialized = s.initialized := by cases e <;> rfl
@[simp] theorem State.clearFlag_cfg (s : State) (e) : (s.clearFlag e).cfg = s.cfg := by cases e <;> rfl
@[simp] theorem State.clearFlag_front (s : State) (e) : (s.clearFlag e).front = s.front := by cases e <;> rfl
@[simp] theorem State.clearFlag_draw (s : State) (e) : (s.clearFlag e).draw = s.draw := by cases e <;> rfl
@[simp] theorem State.clearFlag_mem (s : State) (e) : (s.clearFlag e).mem = s.mem := by cases e <;> rfl
@[simp] theorem State.clearFlag_inFlight (s : State) (e) : (s.clearFlag e).inFlight = s.inFlight := by cases e <;> rfl
@[simp] theorem State.clearFlag_completedAt (s : State) (e) : (s.clearFlag e).completedAt = s.completedAt := by cases e <;> rfl
@[simp] theorem State.clearFlag_now (s : State) (e) : (s.clearFlag e).now = s.now := by cases e <;> rfl
@[simp] theorem State.clearFlag_port (s : State) (e) : (s.clearFlag e).port = s.port := by cases e <;> rfl
@[simp] theorem State.clearFlag_tmr (s : State) (e) : (s.clearFlag e).tmr = s.tmr := by cases e <;> rfl
@[simp] theorem State.clearFlag_chA (s : State) (e) : (s.clearFlag e).chA = s.chA := by cases e <;> rfl
@[simp] theorem State.clearFlag_chB (s : State) (e) : (s.clearFlag e).chB = s.chB := by cases e <;> rfl
@[simp] theorem State.clearFlag_chC (s : State) (e) : (s.clearFlag e).chC = s.chC := by cases e <;> rfl
@[simp] theorem State.clearFlag_irq (s : State) (e) : (s.clearFlag e).irq = s.irq := by cases e <;> rfl
@[simp] theorem State.clearFlag_imask (s : State) (e) : (s.clearFlag e).imask = s.imask := by cases e <;> rfl
@[simp] theorem State.clearFlag_hostPhase (s : State) (e) : (s.clearFlag e).hostPhase = s.hostPhase := by cases e <;> rfl
@[simp] theorem State.clearFlag_faults (s : State) (e) : (s.clearFlag e).faults = s.faults := by cases e <;> rfl
@[simp] theorem State.clearFlag_refused (s : State) (e) : (s.clearFlag e).refused = s.refused := by cases e <;> rfl
@[simp] theorem State.clearFlag_trace (s : State) (e) : (s.clearFlag e).trace = s.trace := by cases e <;> rfl
@[simp] theorem State.clearFlag_program (s : State) (e) : (s.clearFlag e).program = s.program := by cases e <;> rfl
@[simp] theorem State.clearFlag_turns (s : State) (e) : (s.clearFlag e).turns = s.turns := by cases e <;> rfl
@[simp] theorem State.clearFlag_draws (s : State) (e) : (s.clearFlag e).draws = s.draws := by cases e <;> rfl

/-! ## Writing a descriptor -/

@[simp] theorem State.setCh_params (s : State) (x c) : (s.setCh x c).params = s.params := by cases x <;> rfl
@[simp] theorem State.setCh_initialized (s : State) (x c) : (s.setCh x c).initialized = s.initialized := by cases x <;> rfl
@[simp] theorem State.setCh_cfg (s : State) (x c) : (s.setCh x c).cfg = s.cfg := by cases x <;> rfl
@[simp] theorem State.setCh_front (s : State) (x c) : (s.setCh x c).front = s.front := by cases x <;> rfl
@[simp] theorem State.setCh_draw (s : State) (x c) : (s.setCh x c).draw = s.draw := by cases x <;> rfl
@[simp] theorem State.setCh_mem (s : State) (x c) : (s.setCh x c).mem = s.mem := by cases x <;> rfl
@[simp] theorem State.setCh_inFlight (s : State) (x c) : (s.setCh x c).inFlight = s.inFlight := by cases x <;> rfl
@[simp] theorem State.setCh_completedAt (s : State) (x c) : (s.setCh x c).completedAt = s.completedAt := by cases x <;> rfl
@[simp] theorem State.setCh_now (s : State) (x c) : (s.setCh x c).now = s.now := by cases x <;> rfl
@[simp] theorem State.setCh_port (s : State) (x c) : (s.setCh x c).port = s.port := by cases x <;> rfl
@[simp] theorem State.setCh_tmr (s : State) (x c) : (s.setCh x c).tmr = s.tmr := by cases x <;> rfl
@[simp] theorem State.setCh_ef (s : State) (x c) : (s.setCh x c).ef = s.ef := by cases x <;> rfl
@[simp] theorem State.setCh_irq (s : State) (x c) : (s.setCh x c).irq = s.irq := by cases x <;> rfl
@[simp] theorem State.setCh_imask (s : State) (x c) : (s.setCh x c).imask = s.imask := by cases x <;> rfl
@[simp] theorem State.setCh_hostPhase (s : State) (x c) : (s.setCh x c).hostPhase = s.hostPhase := by cases x <;> rfl
@[simp] theorem State.setCh_faults (s : State) (x c) : (s.setCh x c).faults = s.faults := by cases x <;> rfl
@[simp] theorem State.setCh_refused (s : State) (x c) : (s.setCh x c).refused = s.refused := by cases x <;> rfl
@[simp] theorem State.setCh_trace (s : State) (x c) : (s.setCh x c).trace = s.trace := by cases x <;> rfl
@[simp] theorem State.setCh_program (s : State) (x c) : (s.setCh x c).program = s.program := by cases x <;> rfl
@[simp] theorem State.setCh_turns (s : State) (x c) : (s.setCh x c).turns = s.turns := by cases x <;> rfl
@[simp] theorem State.setCh_draws (s : State) (x c) : (s.setCh x c).draws = s.draws := by cases x <;> rfl

theorem State.ch_setCh (s : State) (x y : Chan) (c : Channel) :
    (s.setCh x c).ch y = if y = x then c else s.ch y := by cases x <;> cases y <;> rfl

@[simp] theorem State.ch_portWrite (s : State) (x g r v) : (s.portWrite g r v).ch x = s.ch x := by cases x <;> rfl
@[simp] theorem State.ch_clearFlag (s : State) (x e) : (s.clearFlag e).ch x = s.ch x := by cases x <;> simp [State.ch]

/-! ## Completing a channel -/

@[simp] theorem completeChannel_params (s : State) (x) : (completeChannel s x).params = s.params := by unfold completeChannel; cases h : (s.ch x).intmaj <;> simp
@[simp] theorem completeChannel_initialized (s : State) (x) : (completeChannel s x).initialized = s.initialized := by unfold completeChannel; cases h : (s.ch x).intmaj <;> simp
@[simp] theorem completeChannel_cfg (s : State) (x) : (completeChannel s x).cfg = s.cfg := by unfold completeChannel; cases h : (s.ch x).intmaj <;> simp
@[simp] theorem completeChannel_front (s : State) (x) : (completeChannel s x).front = s.front := by unfold completeChannel; cases h : (s.ch x).intmaj <;> simp
@[simp] theorem completeChannel_draw (s : State) (x) : (completeChannel s x).draw = s.draw := by unfold completeChannel; cases h : (s.ch x).intmaj <;> simp
@[simp] theorem completeChannel_mem (s : State) (x) : (completeChannel s x).mem = s.mem := by unfold completeChannel; cases h : (s.ch x).intmaj <;> simp
@[simp] theorem completeChannel_inFlight (s : State) (x) : (completeChannel s x).inFlight = s.inFlight := by unfold completeChannel; cases h : (s.ch x).intmaj <;> simp
@[simp] theorem completeChannel_completedAt (s : State) (x) : (completeChannel s x).completedAt = s.completedAt := by unfold completeChannel; cases h : (s.ch x).intmaj <;> simp
@[simp] theorem completeChannel_now (s : State) (x) : (completeChannel s x).now = s.now := by unfold completeChannel; cases h : (s.ch x).intmaj <;> simp
@[simp] theorem completeChannel_port (s : State) (x) : (completeChannel s x).port = s.port := by unfold completeChannel; cases h : (s.ch x).intmaj <;> simp
@[simp] theorem completeChannel_tmr (s : State) (x) : (completeChannel s x).tmr = s.tmr := by unfold completeChannel; cases h : (s.ch x).intmaj <;> simp
@[simp] theorem completeChannel_ef (s : State) (x) : (completeChannel s x).ef = s.ef := by unfold completeChannel; cases h : (s.ch x).intmaj <;> simp
@[simp] theorem completeChannel_irq (s : State) (x) : (completeChannel s x).irq = { s.irq with pend := s.irq.pend || (s.ch x).intmaj } := by unfold completeChannel; cases h : (s.ch x).intmaj <;> simp
@[simp] theorem completeChannel_imask (s : State) (x) : (completeChannel s x).imask = s.imask := by unfold completeChannel; cases h : (s.ch x).intmaj <;> simp
@[simp] theorem completeChannel_hostPhase (s : State) (x) : (completeChannel s x).hostPhase = s.hostPhase := by unfold completeChannel; cases h : (s.ch x).intmaj <;> simp
@[simp] theorem completeChannel_faults (s : State) (x) : (completeChannel s x).faults = s.faults := by unfold completeChannel; cases h : (s.ch x).intmaj <;> simp
@[simp] theorem completeChannel_refused (s : State) (x) : (completeChannel s x).refused = s.refused := by unfold completeChannel; cases h : (s.ch x).intmaj <;> simp
@[simp] theorem completeChannel_trace (s : State) (x) : (completeChannel s x).trace = s.trace := by unfold completeChannel; cases h : (s.ch x).intmaj <;> simp
@[simp] theorem completeChannel_program (s : State) (x) : (completeChannel s x).program = s.program := by unfold completeChannel; cases h : (s.ch x).intmaj <;> simp
@[simp] theorem completeChannel_turns (s : State) (x) : (completeChannel s x).turns = s.turns := by unfold completeChannel; cases h : (s.ch x).intmaj <;> simp
@[simp] theorem completeChannel_draws (s : State) (x) : (completeChannel s x).draws = s.draws := by unfold completeChannel; cases h : (s.ch x).intmaj <;> simp

theorem ch_completeChannel (s : State) (x y : Chan) :
    (completeChannel s x).ch y = if y = x then (s.ch x).complete else s.ch y := by
  rw [← State.ch_setCh]
  unfold completeChannel
  cases (s.ch x).intmaj <;> cases y <;> rfl

/-! ## Entering the handler, and its body -/

@[simp] theorem State.irqEnter_params (s : State) : (s.irqEnter).params = s.params := rfl
@[simp] theorem State.irqEnter_initialized (s : State) : (s.irqEnter).initialized = s.initialized := rfl
@[simp] theorem State.irqEnter_cfg (s : State) : (s.irqEnter).cfg = s.cfg := rfl
@[simp] theorem State.irqEnter_front (s : State) : (s.irqEnter).front = s.front := rfl
@[simp] theorem State.irqEnter_draw (s : State) : (s.irqEnter).draw = s.draw := rfl
@[simp] theorem State.irqEnter_mem (s : State) : (s.irqEnter).mem = s.mem := rfl
@[simp] theorem State.irqEnter_inFlight (s : State) : (s.irqEnter).inFlight = s.inFlight := rfl
@[simp] theorem State.irqEnter_completedAt (s : State) : (s.irqEnter).completedAt = s.completedAt := rfl
@[simp] theorem State.irqEnter_now (s : State) : (s.irqEnter).now = s.now := rfl
@[simp] theorem State.irqEnter_port (s : State) : (s.irqEnter).port = s.port := rfl
@[simp] theorem State.irqEnter_tmr (s : State) : (s.irqEnter).tmr = s.tmr := rfl
@[simp] theorem State.irqEnter_ef (s : State) : (s.irqEnter).ef = s.ef := rfl
@[simp] theorem State.irqEnter_chA (s : State) : (s.irqEnter).chA = s.chA := rfl
@[simp] theorem State.irqEnter_chB (s : State) : (s.irqEnter).chB = s.chB := rfl
@[simp] theorem State.irqEnter_chC (s : State) : (s.irqEnter).chC = s.chC := rfl
@[simp] theorem State.irqEnter_irq (s : State) : (s.irqEnter).irq = { s.irq with pend := false } := rfl
@[simp] theorem State.irqEnter_imask (s : State) : (s.irqEnter).imask = s.imask := rfl
@[simp] theorem State.irqEnter_hostPhase (s : State) : (s.irqEnter).hostPhase = s.hostPhase := rfl
@[simp] theorem State.irqEnter_faults (s : State) : (s.irqEnter).faults = s.faults := rfl
@[simp] theorem State.irqEnter_refused (s : State) : (s.irqEnter).refused = s.refused := rfl
@[simp] theorem State.irqEnter_trace (s : State) : (s.irqEnter).trace = s.trace := rfl
@[simp] theorem State.irqEnter_program (s : State) : (s.irqEnter).program = s.program := rfl
@[simp] theorem State.irqEnter_turns (s : State) : (s.irqEnter).turns = s.turns := rfl
@[simp] theorem State.irqEnter_draws (s : State) : (s.irqEnter).draws = s.draws := rfl

@[simp] theorem State.irqReturn_eq (s : State) : s.irqReturn = s := rfl

/-! ## The handler's body -/

@[simp] theorem handlerBody_params (s : State) : (handlerBody s).params = s.params := rfl
@[simp] theorem handlerBody_initialized (s : State) : (handlerBody s).initialized = s.initialized := rfl
@[simp] theorem handlerBody_cfg (s : State) : (handlerBody s).cfg = s.cfg := rfl
@[simp] theorem handlerBody_front (s : State) : (handlerBody s).front = s.front := rfl
@[simp] theorem handlerBody_draw (s : State) : (handlerBody s).draw = s.draw := rfl
@[simp] theorem handlerBody_mem (s : State) : (handlerBody s).mem = s.mem := rfl
@[simp] theorem handlerBody_inFlight (s : State) : (handlerBody s).inFlight = false := rfl
@[simp] theorem handlerBody_completedAt (s : State) : (handlerBody s).completedAt = some s.now := rfl
@[simp] theorem handlerBody_now (s : State) : (handlerBody s).now = s.now := rfl
@[simp] theorem handlerBody_port (s : State) : (handlerBody s).port = s.port := rfl
@[simp] theorem handlerBody_tmr (s : State) : (handlerBody s).tmr = s.tmr := rfl
@[simp] theorem handlerBody_ef (s : State) : (handlerBody s).ef = s.ef := rfl
@[simp] theorem handlerBody_chA (s : State) : (handlerBody s).chA = s.chA := rfl
@[simp] theorem handlerBody_chB (s : State) : (handlerBody s).chB = s.chB := rfl
@[simp] theorem handlerBody_chC (s : State) : (handlerBody s).chC = s.chC := rfl
@[simp] theorem handlerBody_irq (s : State) : (handlerBody s).irq = s.irq := rfl
@[simp] theorem handlerBody_imask (s : State) : (handlerBody s).imask = s.imask := rfl
@[simp] theorem handlerBody_hostPhase (s : State) : (handlerBody s).hostPhase = s.hostPhase := rfl
@[simp] theorem handlerBody_faults (s : State) : (handlerBody s).faults = s.faults := rfl
@[simp] theorem handlerBody_refused (s : State) : (handlerBody s).refused = s.refused := rfl
@[simp] theorem handlerBody_trace (s : State) : (handlerBody s).trace = s.trace ++ [.irq s.now] := rfl
@[simp] theorem handlerBody_program (s : State) : (handlerBody s).program = s.program := rfl
@[simp] theorem handlerBody_turns (s : State) : (handlerBody s).turns = s.turns := rfl
@[simp] theorem handlerBody_draws (s : State) : (handlerBody s).draws = s.draws := rfl

/-! ## SWAP -/

@[simp] theorem swapEffect_params (s : State) : (swapEffect s).params = s.params := rfl
@[simp] theorem swapEffect_initialized (s : State) : (swapEffect s).initialized = s.initialized := rfl
@[simp] theorem swapEffect_cfg (s : State) : (swapEffect s).cfg = s.cfg := rfl
@[simp] theorem swapEffect_front (s : State) : (swapEffect s).front = s.draw := rfl
@[simp] theorem swapEffect_draw (s : State) : (swapEffect s).draw = s.front := rfl
@[simp] theorem swapEffect_mem (s : State) : (swapEffect s).mem = s.mem := rfl
@[simp] theorem swapEffect_inFlight (s : State) : (swapEffect s).inFlight = s.inFlight := rfl
@[simp] theorem swapEffect_completedAt (s : State) : (swapEffect s).completedAt = s.completedAt := rfl
@[simp] theorem swapEffect_now (s : State) : (swapEffect s).now = s.now := rfl
@[simp] theorem swapEffect_port (s : State) : (swapEffect s).port = s.port := rfl
@[simp] theorem swapEffect_tmr (s : State) : (swapEffect s).tmr = s.tmr := rfl
@[simp] theorem swapEffect_ef (s : State) : (swapEffect s).ef = s.ef := rfl
@[simp] theorem swapEffect_chA (s : State) : (swapEffect s).chA = s.chA := rfl
@[simp] theorem swapEffect_chB (s : State) : (swapEffect s).chB = s.chB := rfl
@[simp] theorem swapEffect_chC (s : State) : (swapEffect s).chC = s.chC := rfl
@[simp] theorem swapEffect_irq (s : State) : (swapEffect s).irq = s.irq := rfl
@[simp] theorem swapEffect_imask (s : State) : (swapEffect s).imask = s.imask := rfl
@[simp] theorem swapEffect_hostPhase (s : State) : (swapEffect s).hostPhase = s.hostPhase := rfl
@[simp] theorem swapEffect_faults (s : State) : (swapEffect s).faults = s.faults := rfl
@[simp] theorem swapEffect_refused (s : State) : (swapEffect s).refused = s.refused := rfl
@[simp] theorem swapEffect_trace (s : State) : (swapEffect s).trace = s.trace := rfl
@[simp] theorem swapEffect_program (s : State) : (swapEffect s).program = s.program := rfl
@[simp] theorem swapEffect_turns (s : State) : (swapEffect s).turns = s.turns := rfl
@[simp] theorem swapEffect_draws (s : State) : (swapEffect s).draws = s.draws := rfl

/-! ## SH_SWAP -/

@[simp] theorem shSwapEffect_params (s : State) : (shSwapEffect s).params = s.params := rfl
@[simp] theorem shSwapEffect_initialized (s : State) : (shSwapEffect s).initialized = s.initialized := rfl
@[simp] theorem shSwapEffect_cfg (s : State) : (shSwapEffect s).cfg = s.cfg := rfl
@[simp] theorem shSwapEffect_front (s : State) : (shSwapEffect s).front = s.draw := rfl
@[simp] theorem shSwapEffect_draw (s : State) : (shSwapEffect s).draw = s.front := rfl
@[simp] theorem shSwapEffect_mem (s : State) : (shSwapEffect s).mem = s.mem := rfl
@[simp] theorem shSwapEffect_inFlight (s : State) : (shSwapEffect s).inFlight = s.inFlight := rfl
@[simp] theorem shSwapEffect_completedAt (s : State) : (shSwapEffect s).completedAt = s.completedAt := rfl
@[simp] theorem shSwapEffect_now (s : State) : (shSwapEffect s).now = s.now := rfl
@[simp] theorem shSwapEffect_port (s : State) : (shSwapEffect s).port = s.port := rfl
@[simp] theorem shSwapEffect_tmr (s : State) : (shSwapEffect s).tmr = s.tmr := rfl
@[simp] theorem shSwapEffect_ef (s : State) : (shSwapEffect s).ef = s.ef := rfl
@[simp] theorem shSwapEffect_chA (s : State) : (shSwapEffect s).chA = s.chA := rfl
@[simp] theorem shSwapEffect_chB (s : State) : (shSwapEffect s).chB = { s.chB with src := s.draw } := rfl
@[simp] theorem shSwapEffect_chC (s : State) : (shSwapEffect s).chC = s.chC := rfl
@[simp] theorem shSwapEffect_irq (s : State) : (shSwapEffect s).irq = s.irq := rfl
@[simp] theorem shSwapEffect_imask (s : State) : (shSwapEffect s).imask = s.imask := rfl
@[simp] theorem shSwapEffect_hostPhase (s : State) : (shSwapEffect s).hostPhase = .shWaitGap := rfl
@[simp] theorem shSwapEffect_faults (s : State) : (shSwapEffect s).faults = s.faults := rfl
@[simp] theorem shSwapEffect_refused (s : State) : (shSwapEffect s).refused = s.refused := rfl
@[simp] theorem shSwapEffect_trace (s : State) : (shSwapEffect s).trace = s.trace := rfl
@[simp] theorem shSwapEffect_program (s : State) : (shSwapEffect s).program = s.program := rfl
@[simp] theorem shSwapEffect_turns (s : State) : (shSwapEffect s).turns = s.turns := rfl
@[simp] theorem shSwapEffect_draws (s : State) : (shSwapEffect s).draws = s.draws := rfl

/-! ## SH_ARM -/

@[simp] theorem shArmEffect_params (s : State) : (shArmEffect s).params = s.params := rfl
@[simp] theorem shArmEffect_initialized (s : State) : (shArmEffect s).initialized = s.initialized := rfl
@[simp] theorem shArmEffect_cfg (s : State) : (shArmEffect s).cfg = s.cfg := rfl
@[simp] theorem shArmEffect_front (s : State) : (shArmEffect s).front = s.front := rfl
@[simp] theorem shArmEffect_draw (s : State) : (shArmEffect s).draw = s.draw := rfl
@[simp] theorem shArmEffect_mem (s : State) : (shArmEffect s).mem = s.mem := rfl
@[simp] theorem shArmEffect_inFlight (s : State) : (shArmEffect s).inFlight = true := rfl
@[simp] theorem shArmEffect_completedAt (s : State) : (shArmEffect s).completedAt = s.completedAt := rfl
@[simp] theorem shArmEffect_now (s : State) : (shArmEffect s).now = s.now := rfl
@[simp] theorem shArmEffect_port (s : State) : (shArmEffect s).port = s.port := rfl
@[simp] theorem shArmEffect_tmr (s : State) : (shArmEffect s).tmr = { s.tmr with run := true } := rfl
@[simp] theorem shArmEffect_ef (s : State) : (shArmEffect s).ef = { rise := false, fall0 := false, fall1 := false } := rfl
@[simp] theorem shArmEffect_chA (s : State) : (shArmEffect s).chA = s.chA.arm := rfl
@[simp] theorem shArmEffect_chB (s : State) : (shArmEffect s).chB = s.chB.arm := rfl
@[simp] theorem shArmEffect_chC (s : State) : (shArmEffect s).chC = s.chC.arm := rfl
@[simp] theorem shArmEffect_irq (s : State) : (shArmEffect s).irq = s.irq := rfl
@[simp] theorem shArmEffect_imask (s : State) : (shArmEffect s).imask = false := rfl
@[simp] theorem shArmEffect_hostPhase (s : State) : (shArmEffect s).hostPhase = .ready := rfl
@[simp] theorem shArmEffect_faults (s : State) : (shArmEffect s).faults = s.faults := rfl
@[simp] theorem shArmEffect_refused (s : State) : (shArmEffect s).refused = s.refused := rfl
@[simp] theorem shArmEffect_trace (s : State) : (shArmEffect s).trace = s.trace := rfl
@[simp] theorem shArmEffect_program (s : State) : (shArmEffect s).program = s.program := rfl
@[simp] theorem shArmEffect_turns (s : State) : (shArmEffect s).turns = s.turns := rfl
@[simp] theorem shArmEffect_draws (s : State) : (shArmEffect s).draws = s.draws := rfl

/-! ## INIT -/

@[simp] theorem initEffect_params (s : State) (n base size rate) : (initEffect s n base size rate).params = s.params := rfl
@[simp] theorem initEffect_initialized (s : State) (n base size rate) : (initEffect s n base size rate).initialized = true := rfl
@[simp] theorem initEffect_cfg (s : State) (n base size rate) : (initEffect s n base size rate).cfg = some { n := n, len := 24 * n, base := base, size := size, rate := rate } := rfl
@[simp] theorem initEffect_front (s : State) (n base size rate) : (initEffect s n base size rate).front = base := rfl
@[simp] theorem initEffect_draw (s : State) (n base size rate) : (initEffect s n base size rate).draw = base + BitVec.ofNat 32 (24 * n) := rfl
@[simp] theorem initEffect_mem (s : State) (n base size rate) : (initEffect s n base size rate).mem = Memory.zeroFill s.mem base.toNat (base.toNat + 2 * (24 * n)) := rfl
@[simp] theorem initEffect_inFlight (s : State) (n base size rate) : (initEffect s n base size rate).inFlight = false := rfl
@[simp] theorem initEffect_completedAt (s : State) (n base size rate) : (initEffect s n base size rate).completedAt = none := rfl
@[simp] theorem initEffect_now (s : State) (n base size rate) : (initEffect s n base size rate).now = s.now := rfl
@[simp] theorem initEffect_port (s : State) (n base size rate) : (initEffect s n base size rate).port = { data := 0x00#8, oe := 0xFF#8 } := rfl
@[simp] theorem initEffect_tmr (s : State) (n base size rate) : (initEffect s n base size rate).tmr = { run := true, rate := rate, phase := Config.freePhase s.draws } := rfl
@[simp] theorem initEffect_chA (s : State) (n base size rate) : (initEffect s n base size rate).chA = descriptor .a (24 * n) (Config.freeAddr (s.draws + 4)) := rfl
@[simp] theorem initEffect_chB (s : State) (n base size rate) : (initEffect s n base size rate).chB = descriptor .b (24 * n) base := rfl
@[simp] theorem initEffect_chC (s : State) (n base size rate) : (initEffect s n base size rate).chC = descriptor .c (24 * n) (Config.freeAddr (s.draws + 5)) := rfl
@[simp] theorem initEffect_irq (s : State) (n base size rate) : (initEffect s n base size rate).irq = { pend := false, en := true } := rfl
@[simp] theorem initEffect_imask (s : State) (n base size rate) : (initEffect s n base size rate).imask = false := rfl
@[simp] theorem initEffect_hostPhase (s : State) (n base size rate) : (initEffect s n base size rate).hostPhase = s.hostPhase := rfl
@[simp] theorem initEffect_faults (s : State) (n base size rate) : (initEffect s n base size rate).faults = s.faults := rfl
@[simp] theorem initEffect_refused (s : State) (n base size rate) : (initEffect s n base size rate).refused = s.refused := rfl
@[simp] theorem initEffect_trace (s : State) (n base size rate) : (initEffect s n base size rate).trace = s.trace := rfl
@[simp] theorem initEffect_program (s : State) (n base size rate) : (initEffect s n base size rate).program = s.program := rfl
@[simp] theorem initEffect_turns (s : State) (n base size rate) : (initEffect s n base size rate).turns = s.turns := rfl
@[simp] theorem initEffect_draws (s : State) (n base size rate) : (initEffect s n base size rate).draws = s.draws + 6 := rfl

/-! ## Handing an operation or a program over -/

@[simp] theorem State.withIssued_params (s : State) (r) : (s.withIssued r).params = s.params := rfl
@[simp] theorem State.withIssued_initialized (s : State) (r) : (s.withIssued r).initialized = s.initialized := rfl
@[simp] theorem State.withIssued_cfg (s : State) (r) : (s.withIssued r).cfg = s.cfg := rfl
@[simp] theorem State.withIssued_front (s : State) (r) : (s.withIssued r).front = s.front := rfl
@[simp] theorem State.withIssued_draw (s : State) (r) : (s.withIssued r).draw = s.draw := rfl
@[simp] theorem State.withIssued_mem (s : State) (r) : (s.withIssued r).mem = s.mem := rfl
@[simp] theorem State.withIssued_inFlight (s : State) (r) : (s.withIssued r).inFlight = s.inFlight := rfl
@[simp] theorem State.withIssued_completedAt (s : State) (r) : (s.withIssued r).completedAt = s.completedAt := rfl
@[simp] theorem State.withIssued_now (s : State) (r) : (s.withIssued r).now = s.now := rfl
@[simp] theorem State.withIssued_port (s : State) (r) : (s.withIssued r).port = s.port := rfl
@[simp] theorem State.withIssued_tmr (s : State) (r) : (s.withIssued r).tmr = s.tmr := rfl
@[simp] theorem State.withIssued_ef (s : State) (r) : (s.withIssued r).ef = s.ef := rfl
@[simp] theorem State.withIssued_chA (s : State) (r) : (s.withIssued r).chA = s.chA := rfl
@[simp] theorem State.withIssued_chB (s : State) (r) : (s.withIssued r).chB = s.chB := rfl
@[simp] theorem State.withIssued_chC (s : State) (r) : (s.withIssued r).chC = s.chC := rfl
@[simp] theorem State.withIssued_irq (s : State) (r) : (s.withIssued r).irq = s.irq := rfl
@[simp] theorem State.withIssued_imask (s : State) (r) : (s.withIssued r).imask = s.imask := rfl
@[simp] theorem State.withIssued_hostPhase (s : State) (r) : (s.withIssued r).hostPhase = s.hostPhase := rfl
@[simp] theorem State.withIssued_faults (s : State) (r) : (s.withIssued r).faults = s.faults := rfl
@[simp] theorem State.withIssued_refused (s : State) (r) : (s.withIssued r).refused = s.refused := rfl
@[simp] theorem State.withIssued_trace (s : State) (r) : (s.withIssued r).trace = s.trace := rfl
@[simp] theorem State.withIssued_program (s : State) (r) : (s.withIssued r).program = s.program := rfl
@[simp] theorem State.withIssued_turns (s : State) (r) : (s.withIssued r).turns = .issue (issuerOf r) r :: s.turns := rfl
@[simp] theorem State.withIssued_draws (s : State) (r) : (s.withIssued r).draws = s.draws := rfl

/-! ## A program handed over -/

@[simp] theorem State.withProgram_params (s : State) (is) : (s.withProgram is).params = s.params := rfl
@[simp] theorem State.withProgram_initialized (s : State) (is) : (s.withProgram is).initialized = s.initialized := rfl
@[simp] theorem State.withProgram_cfg (s : State) (is) : (s.withProgram is).cfg = s.cfg := rfl
@[simp] theorem State.withProgram_front (s : State) (is) : (s.withProgram is).front = s.front := rfl
@[simp] theorem State.withProgram_draw (s : State) (is) : (s.withProgram is).draw = s.draw := rfl
@[simp] theorem State.withProgram_mem (s : State) (is) : (s.withProgram is).mem = s.mem := rfl
@[simp] theorem State.withProgram_inFlight (s : State) (is) : (s.withProgram is).inFlight = s.inFlight := rfl
@[simp] theorem State.withProgram_completedAt (s : State) (is) : (s.withProgram is).completedAt = s.completedAt := rfl
@[simp] theorem State.withProgram_now (s : State) (is) : (s.withProgram is).now = s.now := rfl
@[simp] theorem State.withProgram_port (s : State) (is) : (s.withProgram is).port = s.port := rfl
@[simp] theorem State.withProgram_tmr (s : State) (is) : (s.withProgram is).tmr = s.tmr := rfl
@[simp] theorem State.withProgram_ef (s : State) (is) : (s.withProgram is).ef = s.ef := rfl
@[simp] theorem State.withProgram_chA (s : State) (is) : (s.withProgram is).chA = s.chA := rfl
@[simp] theorem State.withProgram_chB (s : State) (is) : (s.withProgram is).chB = s.chB := rfl
@[simp] theorem State.withProgram_chC (s : State) (is) : (s.withProgram is).chC = s.chC := rfl
@[simp] theorem State.withProgram_irq (s : State) (is) : (s.withProgram is).irq = s.irq := rfl
@[simp] theorem State.withProgram_imask (s : State) (is) : (s.withProgram is).imask = s.imask := rfl
@[simp] theorem State.withProgram_hostPhase (s : State) (is) : (s.withProgram is).hostPhase = s.hostPhase := rfl
@[simp] theorem State.withProgram_faults (s : State) (is) : (s.withProgram is).faults = s.faults := rfl
@[simp] theorem State.withProgram_refused (s : State) (is) : (s.withProgram is).refused = s.refused := rfl
@[simp] theorem State.withProgram_trace (s : State) (is) : (s.withProgram is).trace = s.trace := rfl
@[simp] theorem State.withProgram_program (s : State) (is) : (s.withProgram is).program = s.program ++ is.map encode := rfl
@[simp] theorem State.withProgram_turns (s : State) (is) : (s.withProgram is).turns = s.turns := rfl
@[simp] theorem State.withProgram_draws (s : State) (is) : (s.withProgram is).draws = s.draws := rfl

end Sys2Proof.Machine
end

