-- ==== Sys2Proof/Laws/Ops.lean ====
section
/-! SUPPORT. One lemma per shared operation that says once everything it can do. -/

namespace Sys2Proof.Machine

/-! ## Ending a step -/

theorem State.running_iff (s : State) : s.running = true ↔ s.faults = [] ∧ s.refused = false := by
  simp [State.running]

/-- A step ends in a next state exactly in a running block, and then in the state it was given. -/
theorem settle_next_iff {s t u : State} : settle s t = .next u ↔ s.running = true ∧ u = t := by
  rw [State.running_iff]
  unfold settle
  split
  · simp_all
  · split
    · simp_all
    · simp_all only [Host.Outcome.next.injEq, true_and]
      exact ⟨fun h => h.symm, fun h => h.symm⟩

/-- In a running block every step ends in its next state. -/
theorem settle_running {s : State} (t : State) (h : s.running = true) : settle s t = .next t :=
  settle_next_iff.mpr ⟨h, rfl⟩

/-! ## Memory -/

theorem State.inBlock_iff (s : State) (a : Addr) :
    s.inBlock a = true ↔ s.base.toNat ≤ a.toNat ∧ a.toNat < s.base.toNat + 2 * s.len := by
  simp [State.inBlock]

theorem State.memRead_eq_some {s : State} {a : Addr} {v : Byte} :
    s.memRead a = some v ↔ s.inBlock a = true ∧ Memory.read s.mem a.toNat = v := by
  unfold State.memRead
  split <;> simp_all

theorem State.memRead_eq_none {s : State} {a : Addr} : s.memRead a = none ↔ s.inBlock a = false := by
  unfold State.memRead
  split <;> simp_all

/-- A byte write inside the block stores the byte; outside it raises F_RANGE(a). -/
theorem State.memWrite_cases (s : State) (i : Instr) (a : Addr) (v : Byte) :
    (s.inBlock a = true ∧ s.memWrite i a v = { s with mem := Memory.write s.mem a.toNat v }) ∨
    (s.inBlock a = false ∧ s.memWrite i a v = raise s i .range (.addr a)) := by
  unfold State.memWrite
  split <;> simp_all

/-- A byte read emits the byte inside the block; outside it raises F_RANGE(a). -/
theorem readEffect_cases (s : State) (i : Instr) (a : Addr) :
    (s.inBlock a = true ∧ readEffect s i a = s.emit (.read a (Memory.read s.mem a.toNat))) ∨
    (s.inBlock a = false ∧ readEffect s i a = raise s i .range (.addr a)) := by
  unfold readEffect State.memRead
  split
  · rename_i h
    split at h <;> simp_all
  · rename_i h
    split at h <;> simp_all

/-! ## HOST operations and micro-steps -/

/-- A HOST operation is held while SHOW is in progress, and otherwise ends as its body says. -/
theorem hostStep_cases (s t : State) :
    (s.hostPhase = .ready ∧ hostStep s t = t) ∨ (s.hostPhase ≠ .ready ∧ hostStep s t = s) := by
  unfold hostStep
  split <;> simp_all

theorem afterInit_cases (s : State) (i : Instr) (t : State) :
    (s.initialized = true ∧ afterInit s i t = t) ∨
    (s.initialized = false ∧ afterInit s i t = raise s i .notInit .none) := by
  unfold afterInit
  split <;> simp_all

theorem onceInit_cases (s t : State) :
    (s.initialized = true ∧ onceInit s t = t) ∨ (s.initialized = false ∧ onceInit s t = s) := by
  unfold onceInit
  split <;> simp_all

theorem microStep_cases (s : State) (p : HostPhase) (ready : Bool) (t : State) :
    (s.hostPhase = p ∧ ready = true ∧ microStep s p ready t = t) ∨
    ((s.hostPhase ≠ p ∨ ready = false) ∧ microStep s p ready t = s) := by
  unfold microStep
  split
  · simp_all
  · rename_i h
    simp only [Bool.and_eq_true, decide_eq_true_eq] at h
    refine Or.inr ⟨?_, rfl⟩
    by_cases hp : s.hostPhase = p
    · exact Or.inr (by simpa [hp] using h)
    · exact Or.inl hp

/-! ## Edges and channels -/

/-- An edge is taken, raises F_WINDOW, or is held. -/
theorem edgeEffect_cases (s : State) (i : Instr) (e : Edge) :
    (s.tmr.run = true ∧ s.tmr.phase = e.source ∧ s.windowOK = true ∧
      edgeEffect s i e = State.putFlag { s with tmr := { s.tmr with phase := e.target } } e true) ∨
    (s.tmr.run = true ∧ s.tmr.phase = e.source ∧ s.windowOK = false ∧ s.params.windowMode = .strict ∧
      edgeEffect s i e = raise s i .window (.edge e)) ∨
    ((s.tmr.run = false ∨ s.tmr.phase ≠ e.source ∨ (s.windowOK = false ∧ s.params.windowMode = .assumed)) ∧
      edgeEffect s i e = s) := by
  unfold edgeEffect
  cases hr : s.tmr.run
  · simp
  · by_cases hp : s.tmr.phase = e.source
    · cases hw : s.windowOK
      · cases hm : s.params.windowMode <;> simp [hp]
      · simp [hp]
    · simp [hp]

/-- A channel's step is its transfer where it is armed and requested, and is held otherwise. -/
theorem dmaEffect_cases (s : State) (i : Instr) (x : Chan) :
    (s.dmaReady x = true ∧ dmaEffect s i x = xfer s i x) ∨ (s.dmaReady x = false ∧ dmaEffect s i x = s) := by
  unfold dmaEffect
  split <;> simp_all

/-- A transfer has no source byte and raises F_RANGE, moves a byte, or moves the frame's last byte and completes. -/
theorem xfer_cases (s : State) (i : Instr) (x : Chan) :
    (s.sourceByte x = none ∧ xfer s i x = raise s i .range (.addr (s.ch x).src)) ∨
    (∃ v, s.sourceByte x = some v ∧ (s.ch x).citer - 1 ≠ 0 ∧
      xfer s i x = ((s.portWrite x.agent (s.ch x).dst v).clearFlag (s.ch x).trig).setCh x (s.ch x).advance) ∨
    (∃ v, s.sourceByte x = some v ∧ (s.ch x).citer - 1 = 0 ∧
      xfer s i x =
        completeChannel (((s.portWrite x.agent (s.ch x).dst v).clearFlag (s.ch x).trig).setCh x (s.ch x).advance) x) := by
  unfold xfer
  cases h : s.sourceByte x with
  | none => exact Or.inl ⟨rfl, rfl⟩
  | some v =>
    refine Or.inr ?_
    by_cases hc : (s.ch x).advance.citer = 0
    · exact Or.inr ⟨v, rfl, hc, by simp [hc]⟩
    · exact Or.inl ⟨v, rfl, hc, by simp [hc]⟩

/-- A state that agrees outside what a transfer writes. -/
theorem State.eq_of_pipeline_frame {s t : State}
    (h : t.params = s.params ∧ t.initialized = s.initialized ∧ t.cfg = s.cfg ∧ t.front = s.front ∧ t.draw = s.draw ∧
      t.mem = s.mem ∧ t.inFlight = s.inFlight ∧ t.completedAt = s.completedAt ∧ t.now = s.now ∧ t.tmr = s.tmr ∧
      t.imask = s.imask ∧ t.hostPhase = s.hostPhase ∧ t.faults = s.faults ∧ t.refused = s.refused ∧
      t.program = s.program ∧ t.turns = s.turns ∧ t.draws = s.draws) :
    t = { s with port := t.port, ef := t.ef, chA := t.chA, chB := t.chB, chC := t.chC, irq := t.irq, trace := t.trace } := by
  obtain ⟨h1, h2, h3, h4, h5, h6, h7, h8, h9, h10, h11, h12, h13, h14, h15, h16, h17⟩ := h
  rw [← h1, ← h2, ← h3, ← h4, ← h5, ← h6, ← h7, ← h8, ← h9, ← h10, ← h11, ← h12, ← h13, ← h14, ← h15, ← h16, ← h17]

/-- A transfer raises F_RANGE, or changes only the port, the edge flags, its own descriptor, the interrupt and the trace. -/
theorem xfer_frame (s : State) (i : Instr) (x : Chan) :
    xfer s i x = raise s i .range (.addr (s.ch x).src) ∨
    ((∀ y, y ≠ x → (xfer s i x).ch y = s.ch y) ∧
      xfer s i x =
        { s with
          port := (xfer s i x).port, ef := (xfer s i x).ef, chA := (xfer s i x).chA, chB := (xfer s i x).chB,
          chC := (xfer s i x).chC, irq := (xfer s i x).irq, trace := (xfer s i x).trace }) := by
  rcases xfer_cases s i x with ⟨_, e⟩ | ⟨v, _, _, e⟩ | ⟨v, _, _, e⟩
  · exact Or.inl e
  · refine Or.inr ⟨fun y hy => ?_, State.eq_of_pipeline_frame (by rw [e]; simp)⟩
    rw [e, State.ch_setCh, if_neg hy]; simp
  · refine Or.inr ⟨fun y hy => ?_, State.eq_of_pipeline_frame (by rw [e]; simp)⟩
    rw [e, ch_completeChannel, if_neg hy, State.ch_setCh, if_neg hy]; simp

/-! ## The step -/

/-- One step executes the admitted operation, refuses a record that is not admitted, or has no operation. -/
theorem step_cases (s : State) :
    (∃ t, fetch s = (none, t) ∧ step s = settle t t) ∨
    (∃ o t i, fetch s = (some o, t) ∧ accept o.issuer o.record = .ok i ∧ step s = exec i t) ∨
    (∃ o t e, fetch s = (some o, t) ∧ accept o.issuer o.record = .error e ∧ step s = settle t (refuse t)) := by
  unfold step
  rcases h : fetch s with ⟨_ | o, t⟩
  · exact Or.inl ⟨t, rfl, rfl⟩
  · refine Or.inr ?_
    cases ha : accept o.issuer o.record with
    | ok i => exact Or.inl ⟨o, t, i, rfl, ha, by simp only [ha]⟩
    | error e => exact Or.inr ⟨o, t, e, rfl, ha, by simp only [ha]⟩

/-- Fetching moves the schedule, the program and the counter of free values, and nothing else. -/
theorem fetch_frame (s : State) :
    (fetch s).2 = { s with program := (fetch s).2.program, turns := (fetch s).2.turns, draws := (fetch s).2.draws } := by
  unfold fetch nextTurn
  cases s.turns with
  | nil =>
    simp only []
    unfold agentTurn hostTurn
    split <;> (try rfl)
    split <;> (try rfl)
    split <;> rfl
  | cons u us =>
    cases u with
    | issue _ _ => rfl
    | agent a d =>
      simp only []
      unfold agentTurn hostTurn
      split <;> (try rfl)
      split <;> (try rfl)
      split <;> rfl

end Sys2Proof.Machine
end

