-- ==== Sys2Proof/Laws/PerInstr.lean ====
section
/-! SUPPORT. A law of every operation as syntax, constructor by constructor: its code alone selects it. -/

namespace Sys2Proof.Laws.CodeSelects

/-- The eight bits of the code of `i`, with every operand zero, decode to an operation of the same row: same code, same agent,
same issuer (spec 30_encoding R98: a decoder selects the operation by `op` alone). -/
def Statement (i : Instr) : Prop :=
  ∃ j, decodeTableWord 8 i.code.toNat = some j ∧ j.code = i.code ∧ j.agent = i.agent ∧ j.issuer = i.issuer

theorem init (n : Nat) (base : Addr) (size rate : Nat) : Statement (.init n base size rate) := ⟨_, rfl, rfl, rfl, rfl⟩
theorem writeDraw (off : Nat) (val : Byte) : Statement (.writeDraw off val) := ⟨_, rfl, rfl, rfl, rfl⟩
theorem readDraw (off : Nat) : Statement (.readDraw off) := ⟨_, rfl, rfl, rfl, rfl⟩
theorem memWrite (addr : Addr) (val : Byte) : Statement (.memWrite addr val) := ⟨_, rfl, rfl, rfl, rfl⟩
theorem memRead (addr : Addr) : Statement (.memRead addr) := ⟨_, rfl, rfl, rfl, rfl⟩
theorem showOp : Statement (.showOp) := ⟨_, rfl, rfl, rfl, rfl⟩
theorem busy : Statement (.busy) := ⟨_, rfl, rfl, rfl, rfl⟩
theorem swap : Statement (.swap) := ⟨_, rfl, rfl, rfl, rfl⟩
theorem shWaitInFlight : Statement (.shWaitInFlight) := ⟨_, rfl, rfl, rfl, rfl⟩
theorem shSwap : Statement (.shSwap) := ⟨_, rfl, rfl, rfl, rfl⟩
theorem shWaitGap : Statement (.shWaitGap) := ⟨_, rfl, rfl, rfl, rfl⟩
theorem shMask : Statement (.shMask) := ⟨_, rfl, rfl, rfl, rfl⟩
theorem shAlignStop : Statement (.shAlignStop) := ⟨_, rfl, rfl, rfl, rfl⟩
theorem shArm : Statement (.shArm) := ⟨_, rfl, rfl, rfl, rfl⟩
theorem edgeRise : Statement (.edgeRise) := ⟨_, rfl, rfl, rfl, rfl⟩
theorem edgeFall0 : Statement (.edgeFall0) := ⟨_, rfl, rfl, rfl, rfl⟩
theorem edgeFall1 : Statement (.edgeFall1) := ⟨_, rfl, rfl, rfl, rfl⟩
theorem dmaA : Statement (.dmaA) := ⟨_, rfl, rfl, rfl, rfl⟩
theorem dmaB : Statement (.dmaB) := ⟨_, rfl, rfl, rfl, rfl⟩
theorem dmaC : Statement (.dmaC) := ⟨_, rfl, rfl, rfl, rfl⟩
theorem irqCompletion : Statement (.irqCompletion) := ⟨_, rfl, rfl, rfl, rfl⟩
theorem time (d : Nat) : Statement (.time d) := ⟨_, rfl, rfl, rfl, rfl⟩
theorem portData (v : Byte) : Statement (.portData v) := ⟨_, rfl, rfl, rfl, rfl⟩
theorem portSet (v : Byte) : Statement (.portSet v) := ⟨_, rfl, rfl, rfl, rfl⟩
theorem portClear (v : Byte) : Statement (.portClear v) := ⟨_, rfl, rfl, rfl, rfl⟩

end Sys2Proof.Laws.CodeSelects
end

