-- ==== Sys2Proof/Laws/Run.lean ====
section
/-! SUPPORT. Runs: what the chosen agent's step is, that an agent without an enabled step would change nothing, and what every run
and every fair run has (spec 00_scope R15, R16). -/

namespace Sys2Proof.Machine

/-! ## The step of the chosen agent -/

/-- A step the scheduler takes, of an operation the scheduler may issue. -/
theorem stepBy_of_scheduled {s : State} {a : Agent} {d : Nat} {i : Instr}
    (hf : agentTurn { s with turns := [] } a d = (scheduled i, { s with turns := [] }))
    (ha : accept .scheduler (encode i) = .ok i) : stepBy s (a, d) = exec i { s with turns := [] } := by
  have h : fetch { s with turns := [.agent a d] } = (scheduled i, { s with turns := [] }) := hf
  unfold stepBy step
  rw [h]
  simp only [scheduled, ha]

/-- HOST inside SHOW takes the micro-step its position names. -/
theorem stepBy_host_micro {s : State} {i : Instr} (d : Nat) (hm : s.hostPhase.micro = some i) :
    stepBy s (.host, d) = exec i { s with turns := [] } := by
  refine stepBy_of_scheduled (by simp only [agentTurn, hostTurn, hm]) ?_
  revert hm
  cases s.hostPhase <;> simp only [HostPhase.micro, Option.some.injEq, reduceCtorEq, false_implies] <;> rintro rfl <;> rfl

/-- The timer takes the edge its phase leads to. -/
theorem stepBy_tmr (s : State) (d : Nat) : stepBy s (.tmr, d) = exec (edgeAfter s.tmr.phase) { s with turns := [] } :=
  stepBy_of_scheduled rfl (by cases s.tmr.phase <;> rfl)

theorem stepBy_isr (s : State) (d : Nat) : stepBy s (.isr, d) = exec .irqCompletion { s with turns := [] } := rfl
theorem stepBy_dmaA (s : State) (d : Nat) : stepBy s (.dmaA, d) = exec .dmaA { s with turns := [] } := rfl
theorem stepBy_dmaB (s : State) (d : Nat) : stepBy s (.dmaB, d) = exec .dmaB { s with turns := [] } := rfl
theorem stepBy_dmaC (s : State) (d : Nat) : stepBy s (.dmaC, d) = exec .dmaC { s with turns := [] } := rfl
theorem stepBy_clk (s : State) (d : Nat) : stepBy s (.clk, d) = exec (.time (d + 1)) { s with turns := [] } := rfl

/-- HOST at READY with its program at an end has no step. -/
theorem stepBy_host_done {s : State} (d : Nat) (hp : s.hostPhase = .ready) (he : s.program = []) :
    stepBy s (.host, d) = settle { s with turns := [] } { s with turns := [] } := by
  have h : fetch { s with turns := [.agent .host d] } = (none, { s with turns := [] }) := by
    simp only [fetch, nextTurn, agentTurn, hostTurn, hp, HostPhase.micro, he]
  unfold stepBy step
  rw [h]

/-! ## An agent with no enabled step -/

/-- A timer with no enabled edge holds the one its phase leads to. -/
theorem edge_held {s : State} (h : s.timerEnabled = false) :
    exec (edgeAfter s.tmr.phase) { s with turns := [] } = settle { s with turns := [] } { s with turns := [] } := by
  have key : ∀ (i : Instr) (e : Edge), edgeEffect { s with turns := [] } i e = { s with turns := [] } := by
    intro i e
    have hw : State.windowOK { s with turns := [] } = s.windowOK := rfl
    simp only [State.timerEnabled, Bool.and_eq_false_iff, Bool.or_eq_false_iff, decide_eq_false_iff_not] at h
    rcases edgeEffect_cases { s with turns := [] } i e with ⟨h1, _, h3, _⟩ | ⟨h1, _, _, h4, _⟩ | ⟨_, h2⟩
    · rw [hw] at h3
      simp_all
    · simp_all
    · exact h2
  cases hp : s.tmr.phase <;> simp only [edgeAfter, exec, execEdgeRise, execEdgeFall0, execEdgeFall1, key]

/-- HOST with no enabled step holds the micro-step its position names. -/
theorem micro_held {s : State} {i : Instr} (hm : s.hostPhase.micro = some i) (he : s.hostEnabled = false) :
    exec i { s with turns := [] } = settle { s with turns := [] } { s with turns := [] } := by
  have key : ∀ (p : HostPhase) (ready : Bool) (t : State), ready = false →
      microStep { s with turns := [] } p ready t = { s with turns := [] } := by
    rintro p _ t rfl
    simp only [microStep, Bool.and_false, Bool.false_eq_true, if_false]
  unfold State.hostEnabled at he
  split at he <;> rename_i hp <;> simp only [hp, HostPhase.micro, Option.some.injEq, reduceCtorEq] at hm <;>
    (try cases he) <;> subst hm
  · exact congrArg (settle { s with turns := [] }) (key _ _ _ he)
  · exact congrArg (settle { s with turns := [] }) (key _ _ _ he)
  · exact congrArg (settle { s with turns := [] }) (key _ _ _ he)

/-- An agent with no enabled step, if it were chosen, would change nothing: it waits (00_scope R14). -/
theorem stepBy_not_enabled {s : State} {a : Agent} (d : Nat) (hr : s.running = true) (he : s.enabled a = false) :
    stepBy s (a, d) = .next { s with turns := [] } := by
  have hs : settle { s with turns := [] } { s with turns := [] } = .next { s with turns := [] } := settle_running _ hr
  have hdma : ∀ (i : Instr) (x : Chan), s.dmaReady x = false → dmaEffect { s with turns := [] } i x = { s with turns := [] } := by
    intro i x hx
    rcases dmaEffect_cases { s with turns := [] } i x with ⟨h, _⟩ | ⟨_, h⟩
    · exact absurd (h.symm.trans hx) (by decide)
    · exact h
  simp only [State.enabled, hr, Bool.true_and] at he
  cases a with
  | host =>
    cases hm : s.hostPhase.micro with
    | some i => rw [stepBy_host_micro d hm, micro_held hm he, hs]
    | none =>
      have hp : s.hostPhase = .ready := by revert hm; cases s.hostPhase <;> simp [HostPhase.micro]
      rw [stepBy_host_done d hp (by simpa [State.hostEnabled, hp] using he), hs]
  | isr =>
    have hi : State.irqReady { s with turns := [] } = false := he
    rw [stepBy_isr]
    simp only [exec, execIrqCompletion, hi, Bool.false_eq_true, if_false, hs]
  | tmr => rw [stepBy_tmr, edge_held he, hs]
  | dmaA => rw [stepBy_dmaA]; simp only [exec, execDmaA, hdma _ _ he, hs]
  | dmaB => rw [stepBy_dmaB]; simp only [exec, execDmaB, hdma _ _ he, hs]
  | dmaC => rw [stepBy_dmaC]; simp only [exec, execDmaC, hdma _ _ he, hs]
  | clk => cases he

/-! ## Runs -/

/-- No state of a run has halted. -/
theorem IsRun.running {states : Nat → State} {choices : Nat → Choice} (h : IsRun states choices) (k : Nat) :
    (states k).running = true := by
  have := h.enabled k
  simp only [State.enabled, Bool.and_eq_true] at this
  exact this.1

/-- In a fair run CLK steps again and again, because its step is always enabled, and each of its steps advances time. -/
theorem IsFairRun.clk_steps {states : Nat → State} {choices : Nat → Choice} (h : IsFairRun states choices) (k : Nat) :
    ∃ j, k ≤ j ∧ (choices j).1 = .clk ∧ (states j).now < (states (j + 1)).now := by
  obtain ⟨j, hk, hj⟩ := h.fair .clk k fun i _ => by simp only [State.enabled, h.run.running i, Bool.and_self]
  refine ⟨j, hk, hj, ?_⟩
  have hstep := h.run.step j
  rw [show choices j = (.clk, (choices j).2) from Prod.ext hj rfl, stepBy_clk] at hstep
  rw [(settle_next_iff.mp hstep).2]
  simp

end Sys2Proof.Machine
end

