-- ==== Sys2Proof/Tests/Slice0.lean ====
section
/-! SUPPORT. The model's own tests. Expected values come from spec 95_test_vectors (T, P, D, B, S, C, M, E and the programs P1 to
P5), or from the rule named. The witnesses at the end meet the hypotheses of the statements of the obligations. -/

namespace Sys2Proof.Machine

/-! ## States the tests start from -/

/-- The parameters 95_test_vectors assumes: RESET_GAP = 50, MAX_COUNT = 32767, both modes ASSUMED; rate codes 0 and 1. -/
def vecParams : Params := { Params.witness with resetGap := 50, maxCount := 32767 }

/-- Power-on under those parameters. -/
def vecReset : State := { State.reset with params := vecParams }

/-- After B-1, `INIT N=1, base=0x20000000, size=48, rate=800k`, with the draws at phase TAIL and no flag set. -/
def vecInit : State :=
  { initEffect vecReset 1 0x20000000#32 48 .rate800k with
    tmr := { run := true, rate := .rate800k, phase := .tail }, ef := { rise := false, fall0 := false, fall1 := false } }

/-- After B-1 and a SHOW: the frame at 0x20000018 is armed. -/
def vecArmed : State :=
  { vecInit with
    front := 0x20000018#32, draw := 0x20000000#32, inFlight := true, chA := vecInit.chA.arm
    chB := { vecInit.chB.arm with src := 0x20000018#32 }, chC := vecInit.chC.arm }

/-- After B-1, at a position of SHOW. -/
def vecShow (p : HostPhase) : State := { vecInit with hostPhase := p }

/-- The outcome is a next state of which `p` holds. -/
def nextIs (o : Host.Outcome State Fault Refusal) (p : State → Bool) : Bool :=
  match o with
  | .next t => p t
  | .fault _ => false
  | .refused _ => false

/-- The last fault of a state: its code and its info. -/
def lastFault (s : State) : Option (Nat × FaultInfo) := s.faults.getLast?.map fun f => (f.code.number, f.info)

/-! ## Well-formedness -/

theorem test_time_zero_is_ill_formed : (Instr.time 0).wellFormed = false := by decide
theorem test_time_one_is_well_formed : (Instr.time 1).wellFormed = true := by decide

/-! ## Decoding: codes written out bit by bit from 30_encoding R99, operands from the programs of 95_test_vectors -/

theorem test_decode_init :
    (decode ⟨0b00000001#8, [.nat 1, .addr 0x20000000#32, .nat 48, .nat 0]⟩).toOption =
      some (.init 1 0x20000000#32 48 0) := by decide
theorem test_decode_write_draw :
    (decode ⟨0b00000010#8, [.nat 47, .byte 0x80#8]⟩).toOption = some (.writeDraw 47 0x80#8) := by decide
theorem test_decode_read_draw : (decode ⟨0b00000011#8, [.nat 47]⟩).toOption = some (.readDraw 47) := by decide
theorem test_decode_mem_write :
    (decode ⟨0b00000100#8, [.addr 0x20000018#32, .byte 0x00#8]⟩).toOption = some (.memWrite 0x20000018#32 0x00#8) := by
  decide
theorem test_decode_mem_read :
    (decode ⟨0b00000101#8, [.addr 0x0000105F#32]⟩).toOption = some (.memRead 0x0000105F#32) := by decide
theorem test_decode_show : (decode ⟨0b00000110#8, []⟩).toOption = some .showOp := by decide
theorem test_decode_busy : (decode ⟨0b00000111#8, []⟩).toOption = some .busy := by decide
theorem test_decode_swap : (decode ⟨0b00001000#8, []⟩).toOption = some .swap := by decide
theorem test_decode_sh_wait_inflight : (decode ⟨0b00010001#8, []⟩).toOption = some .shWaitInFlight := by decide
theorem test_decode_sh_swap : (decode ⟨0b00010010#8, []⟩).toOption = some .shSwap := by decide
theorem test_decode_sh_wait_gap : (decode ⟨0b00010011#8, []⟩).toOption = some .shWaitGap := by decide
theorem test_decode_sh_mask : (decode ⟨0b00010100#8, []⟩).toOption = some .shMask := by decide
theorem test_decode_sh_align_stop : (decode ⟨0b00010101#8, []⟩).toOption = some .shAlignStop := by decide
theorem test_decode_sh_arm : (decode ⟨0b00010110#8, []⟩).toOption = some .shArm := by decide
theorem test_decode_edge_rise : (decode ⟨0b00100000#8, []⟩).toOption = some .edgeRise := by decide
theorem test_decode_edge_fall0 : (decode ⟨0b00100001#8, []⟩).toOption = some .edgeFall0 := by decide
theorem test_decode_edge_fall1 : (decode ⟨0b00100010#8, []⟩).toOption = some .edgeFall1 := by decide
theorem test_decode_dma_a : (decode ⟨0b00110000#8, []⟩).toOption = some .dmaA := by decide
theorem test_decode_dma_b : (decode ⟨0b00110001#8, []⟩).toOption = some .dmaB := by decide
theorem test_decode_dma_c : (decode ⟨0b00110010#8, []⟩).toOption = some .dmaC := by decide
theorem test_decode_irq_completion : (decode ⟨0b01000000#8, []⟩).toOption = some .irqCompletion := by decide
theorem test_decode_time : (decode ⟨0b01010000#8, [.nat 30]⟩).toOption = some (.time 30) := by decide
theorem test_decode_port_data : (decode ⟨0b01100000#8, [.byte 0xA5#8]⟩).toOption = some (.portData 0xA5#8) := by decide
theorem test_decode_port_set : (decode ⟨0b01100001#8, [.byte 0x0F#8]⟩).toOption = some (.portSet 0x0F#8) := by decide
theorem test_decode_port_clear : (decode ⟨0b01100010#8, [.byte 0x0F#8]⟩).toOption = some (.portClear 0x0F#8) := by decide
/-- R100: 0x09, 0x10, 0x17, 0x23, 0x33, 0x63 and 0x00 are in no row. -/
theorem test_decode_reserved :
    ([0x00#8, 0x09#8, 0x10#8, 0x17#8, 0x23#8, 0x33#8, 0x41#8, 0x51#8, 0x63#8, 0xFF#8].all fun op =>
      (decode ⟨op, []⟩).toOption == none) = true := by decide
/-- M-4, M-5: a micro-step code and SWAP in a program. -/
theorem test_admit_misplaced :
    (accept .program ⟨0x16#8, []⟩).toOption = none ∧ (accept .program ⟨0x08#8, []⟩).toOption = none ∧
    (accept .dmaA ⟨0x60#8, [.byte 0#8]⟩).toOption = none := by decide

/-! ## The step -/

theorem test_fetch_word_runs_time :
    nextIs (step (vecReset.withIssued ⟨0x50#8, [.nat 5]⟩)) (fun t => decide (t.now = 5)) = true := by decide
/-- B-11 through the interface: BUSY placed at reset is fetched and raises F_NOT_INIT. -/
theorem test_fetch_word_runs_busy :
    nextIs (step (State.reset.withFetchWord 8 0x07)) (fun t => lastFault t == some (5, .none)) = true := by decide
/-- M-3: a reserved code is refused. -/
theorem test_step_refuses_reserved :
    nextIs (step { vecReset with program := [⟨0x09#8, []⟩], turns := [.agent .host 0] })
      (fun t => t.refused && t.faults.isEmpty) = true := by decide
/-- R241: before INIT, a step of SWAP or of a port primitive is not enabled. -/
theorem test_swap_held_before_init :
    nextIs (exec .swap vecReset) (fun u => decide (u = vecReset)) = true := by decide
theorem test_port_primitives_held_before_init :
    [Instr.portData 0xA5#8, .portSet 0x0F#8, .portClear 0x0F#8].all (fun i =>
      nextIs (exec i vecReset) (fun t => decide (t = vecReset))) = true := by decide
/-- R19: an operation HOST has still to issue, in its program or in the schedule, keeps the run from its end. -/
theorem test_end_of_run :
    vecInit.ended = true ∧ State.ended (State.reset.withFetchWord 8 0x07) = false ∧
    State.ended { vecInit with program := [encode .busy] } = false ∧ vecArmed.ended = false ∧
    (vecShow .shWaitGap).ended = false := by decide
theorem test_halted_run_stops :
    nextIs (step { vecReset with refused := true, turns := [.agent .clk 0] }) (fun _ => true) = false := by decide

/-! ## INIT -/

/-- B-1 and E1: geometry, port, interrupt and the descriptor of B (R95, R96). -/
theorem test_init_b1 :
    nextIs (exec (.init 1 0x20000000#32 48 0) vecReset) (fun t =>
      t.initialized && t.front == 0x20000000#32 && t.draw == 0x20000018#32 && t.port.data == 0x00#8 &&
      t.port.oe == 0xFF#8 && t.tmr.run && t.irq.en && !t.irq.pend && t.completedAt == none &&
      t.chB.slast == 0xFFFFFFE8#32 && t.chB.src == 0x20000000#32 && t.chC.intmaj && !t.chA.erq) = true := by decide
/-- B-2, B-3, B-5, B-8, B-4: the faults and what they record. -/
theorem test_init_faults :
    nextIs (exec (.init 1 0x20000000#32 47 0) vecReset) (fun t => lastFault t == some (2, .size 47)) = true ∧
    nextIs (exec (.init 0 0x20000000#32 0 0) vecReset) (fun t => lastFault t == some (3, .none)) = true ∧
    nextIs (exec (.init 1366 0x20000000#32 65568 0) vecReset) (fun t => lastFault t == some (4, .pixels 1366)) = true ∧
    nextIs (exec (.init 1 0xFFFFFFD1#32 48 0) vecReset) (fun t => lastFault t == some (2, .base 0xFFFFFFD1#32)) = true ∧
    nextIs (exec (.init 0 0x20000000#32 0 7) vecReset) (fun t => lastFault t == some (1, .rate 7)) = true := by decide

/-! ## Data operations -/

/-- B-12. -/
theorem test_write_draw_b12 :
    nextIs (exec (.writeDraw 23 0x80#8) vecInit) (fun t => t.mem == [(0x2000002F, 0x80#8)]) = true := by decide
/-- B-13. -/
theorem test_write_draw_b13 :
    nextIs (exec (.writeDraw 24 0x80#8) vecInit) (fun t => lastFault t == some (7, .offset 24) && t.mem == []) = true := by
  decide
/-- B-14: READ_DRAW 23 after B-12. -/
theorem test_read_draw_b14 :
    nextIs (exec (.readDraw 23) { vecInit with mem := [(0x2000002F, 0x80#8)] })
      (fun t => t.trace == [.read 0x2000002F#32 0x80#8]) = true := by decide
/-- B-15: READ_DRAW 0 after B-1 reads 0x00; B-21's order at power-on. -/
theorem test_read_draw_b15 :
    nextIs (exec (.readDraw 0) vecInit) (fun t => t.trace == [.read 0x20000018#32 0x00#8]) = true ∧
    nextIs (exec (.readDraw 24) vecReset) (fun t => lastFault t == some (5, .none)) = true := by decide
/-- B-16. -/
theorem test_mem_write_b16 :
    nextIs (exec (.memWrite 0x20000018#32 0x7E#8) vecInit) (fun t => t.mem == [(0x20000018, 0x7E#8)]) = true := by decide
/-- B-17, B-18. -/
theorem test_mem_write_faults :
    nextIs (exec (.memWrite 0x20000000#32 0x7E#8) vecInit)
      (fun t => lastFault t == some (8, .addrTx 0x20000000#32 .idle)) = true ∧
    nextIs (exec (.memWrite 0x20000030#32 0x7E#8) vecInit) (fun t => lastFault t == some (7, .addr 0x20000030#32)) = true := by
  decide
/-- B-19, B-20. -/
theorem test_mem_read :
    nextIs (exec (.memRead 0x20000000#32) vecInit) (fun t => t.trace == [.read 0x20000000#32 0x00#8]) = true ∧
    nextIs (exec (.memRead 0x1FFFFFFF#32) vecInit) (fun t => lastFault t == some (7, .addr 0x1FFFFFFF#32)) = true := by
  decide

/-! ## The buffer swap and SHOW -/

/-- E2: SWAP once. -/
theorem test_swap_e2 :
    nextIs (exec .swap vecInit) (fun t => t.front == 0x20000018#32 && t.draw == 0x20000000#32 && t.mem == vecInit.mem &&
      t.chB.src == 0x20000000#32) = true := by decide
/-- S-1, S-2, and R170's F_REENTRY. -/
theorem test_show :
    nextIs (exec .showOp vecInit) (fun t => t.hostPhase == .shWaitInFlight) = true ∧
    nextIs (exec .showOp vecReset) (fun t => lastFault t == some (5, .none)) = true ∧
    nextIs (exec .showOp (vecShow .shMask)) (fun t => lastFault t == some (9, .none)) = true := by decide
/-- S-3, S-4. -/
theorem test_sh_wait_inflight :
    nextIs (exec .shWaitInFlight { vecArmed with hostPhase := .shWaitInFlight })
      (fun t => t.hostPhase == .shWaitInFlight) = true ∧
    nextIs (exec .shWaitInFlight (vecShow .shWaitInFlight)) (fun t => t.hostPhase == .shSwap) = true := by decide
/-- S-5. -/
theorem test_sh_swap :
    nextIs (exec .shSwap (vecShow .shSwap)) (fun t => t.front == 0x20000018#32 && t.draw == 0x20000000#32 &&
      t.chB.src == 0x20000018#32 && t.hostPhase == .shWaitGap) = true := by decide
/-- S-6, S-7, S-8. -/
theorem test_sh_wait_gap :
    nextIs (exec .shWaitGap (vecShow .shWaitGap)) (fun t => t.hostPhase == .shMask) = true ∧
    nextIs (exec .shWaitGap { vecShow .shWaitGap with completedAt := some 1000, now := 1049 })
      (fun t => t.hostPhase == .shWaitGap) = true ∧
    nextIs (exec .shWaitGap { vecShow .shWaitGap with completedAt := some 1000, now := 1050 })
      (fun t => t.hostPhase == .shMask) = true := by decide
/-- S-9. -/
theorem test_sh_mask :
    nextIs (exec .shMask (vecShow .shMask)) (fun t => t.imask && t.hostPhase == .shAlignStop) = true := by decide
/-- S-10, S-11. -/
theorem test_sh_align_stop :
    nextIs (exec .shAlignStop { vecShow .shAlignStop with tmr := ⟨true, .rate800k, .hiOne⟩ })
      (fun t => t.tmr.run && t.hostPhase == .shAlignStop) = true ∧
    nextIs (exec .shAlignStop (vecShow .shAlignStop)) (fun t => t.tmr == ⟨false, .rate800k, .tail⟩ &&
      t.hostPhase == .shArm) = true := by decide
/-- S-12: ALIGN_MODE = ANY. -/
theorem test_sh_align_stop_any :
    nextIs (exec .shAlignStop { vecShow .shAlignStop with
        params := { vecParams with alignMode := .any }, tmr := ⟨true, .rate800k, .hiBoth⟩ })
      (fun t => t.tmr == ⟨false, .rate800k, .hiBoth⟩ && t.hostPhase == .shArm) = true := by decide
/-- S-13. -/
theorem test_sh_arm :
    nextIs (exec .shArm { vecShow .shArm with
        ef := ⟨true, false, true⟩, imask := true, tmr := ⟨false, .rate800k, .tail⟩ })
      (fun t => t.edgeFlags == 0b000#3 && t.dmaErq == 0b111#3 && !t.chA.done && !t.chB.done && !t.chC.done &&
        t.inFlight && t.tmr.run && !t.imask && t.hostPhase == .ready) = true := by decide

/-! ## The timer -/

/-- T1, T4. -/
theorem test_edge_rise :
    nextIs (exec .edgeRise vecInit) (fun t => t.tmr.phase == .hiBoth && t.edgeFlags == 0b001#3) = true ∧
    nextIs (exec .edgeRise { vecInit with ef := ⟨true, true, true⟩ })
      (fun t => t.tmr.phase == .hiBoth && t.edgeFlags == 0b111#3) = true := by decide
/-- T5, T8. -/
theorem test_edge_rise_held :
    nextIs (exec .edgeRise { vecInit with tmr := ⟨false, .rate800k, .tail⟩ }) (fun t => t.tmr.phase == .tail) = true ∧
    nextIs (exec .edgeRise { vecInit with ef := ⟨false, false, true⟩ })
      (fun t => t.tmr.phase == .hiBoth && t.edgeFlags == 0b101#3) = true := by decide
/-- T2, T6. -/
theorem test_edge_fall0 :
    nextIs (exec .edgeFall0 { vecArmed with tmr := ⟨true, .rate800k, .hiBoth⟩ })
      (fun t => t.tmr.phase == .hiOne && t.edgeFlags == 0b010#3) = true ∧
    nextIs (exec .edgeFall0 { vecArmed with tmr := ⟨true, .rate800k, .hiBoth⟩, ef := ⟨true, false, false⟩ })
      (fun t => t.tmr.phase == .hiBoth && t.faults.isEmpty) = true := by decide
/-- T7. -/
theorem test_edge_fall0_strict :
    nextIs (exec .edgeFall0 { vecArmed with
        params := { vecParams with windowMode := .strict }, tmr := ⟨true, .rate800k, .hiBoth⟩, ef := ⟨true, false, false⟩ })
      (fun t => lastFault t == some (10, .edge .fall0) && t.tmr.phase == .hiBoth && t.edgeFlags == 0b001#3) = true := by
  decide
/-- T3, and T9's wrong phase. -/
theorem test_edge_fall1 :
    nextIs (exec .edgeFall1 { vecInit with tmr := ⟨true, .rate800k, .hiOne⟩ })
      (fun t => t.tmr.phase == .tail && t.edgeFlags == 0b100#3) = true ∧
    nextIs (exec .edgeFall1 { vecInit with tmr := ⟨true, .rate800k, .hiBoth⟩ })
      (fun t => t.tmr.phase == .hiBoth && t.edgeFlags == 0b000#3) = true := by decide

/-! ## The port -/

/-- After B-1, with the lines at `v`. -/
def vecLines (v : Byte) : State := { vecInit with port := { data := v, oe := 0xFF#8 } }

/-- P-4, P-5. -/
theorem test_port_data :
    nextIs (exec (.portData 0xA5#8) (vecLines 0xFF#8)) (fun t => t.port.data == 0xA5#8 &&
      t.trace == [.port .dmaB .data 0xA5#8 0xA5#8]) = true ∧
    nextIs (exec (.portData 0x81#8) (vecLines 0x00#8)) (fun t => t.port.data == 0x81#8) = true := by decide
/-- P-2, P-3. -/
theorem test_port_set :
    nextIs (exec (.portSet 0x0F#8) (vecLines 0x5A#8)) (fun t => t.trace == [.port .dmaA .set 0x0F#8 0x5F#8]) = true ∧
    nextIs (exec (.portSet 0x00#8) (vecLines 0x5A#8)) (fun t => t.port.data == 0x5A#8) = true := by decide
/-- P-7, P-8. -/
theorem test_port_clear :
    nextIs (exec (.portClear 0x0F#8) (vecLines 0xA5#8)) (fun t => t.trace == [.port .dmaC .clear 0x0F#8 0xA0#8]) = true ∧
    nextIs (exec (.portClear 0x00#8) (vecLines 0xA5#8)) (fun t => t.port.data == 0xA5#8) = true := by decide

/-! ## The channels -/

/-- D-1, D-3. -/
theorem test_dma_a :
    nextIs (exec .dmaA { vecArmed with ef := ⟨true, false, false⟩ }) (fun t => t.port.data == 0xFF#8 && !t.ef.rise &&
      t.chA.citer == 23 && t.chA.erq) = true ∧
    nextIs (exec .dmaA { vecInit with ef := ⟨true, false, false⟩ }) (fun t => t.ef.rise && t.trace == []) = true := by decide
/-- D-8: the last transfer of A. -/
theorem test_dma_a_completes :
    nextIs (exec .dmaA { vecArmed with ef := ⟨true, false, false⟩, chA := { vecArmed.chA with citer := 1 } })
      (fun t => t.port.data == 0xFF#8 && t.chA.citer == 24 && t.chA.done && !t.chA.erq && !t.irq.pend) = true := by decide

/-- The frame at 0x20000000, channel B at `src` with `n` transfers left and its request pending; the byte at `src` is `v`. -/
def vecB (src : Addr) (v : Byte) (n : Nat) : State :=
  { vecArmed with
    front := 0x20000000#32, draw := 0x20000018#32, mem := [(src.toNat, v)], ef := ⟨false, true, false⟩
    port := { data := 0xFF#8, oe := 0xFF#8 }, chB := { vecArmed.chB with src := src, citer := n } }

/-- D-4. -/
theorem test_dma_b_d4 :
    nextIs (exec .dmaB (vecB 0x20000000#32 0xA5#8 24)) (fun t => t.port.data == 0xA5#8 && !t.ef.fall0 &&
      t.chB.src == 0x20000001#32 && t.chB.citer == 23 && t.chB.erq) = true := by decide
/-- D-5: the last transfer of B, and the back-offset. -/
theorem test_dma_b_d5 :
    nextIs (exec .dmaB (vecB 0x20000017#32 0x3C#8 1)) (fun t => t.port.data == 0x3C#8 && t.chB.src == 0x20000000#32 &&
      t.chB.citer == 24 && t.chB.done && !t.chB.erq && !t.irq.pend) = true := by decide

/-- Channel C with `n` transfers left and its request pending, lines 0xA5. -/
def vecC (n : Nat) : State :=
  { vecArmed with
    ef := ⟨false, false, true⟩, port := { data := 0xA5#8, oe := 0xFF#8 }, chC := { vecArmed.chC with citer := n } }

/-- D-6, D-7. -/
theorem test_dma_c :
    nextIs (exec .dmaC (vecC 2)) (fun t => t.port.data == 0x00#8 && t.chC.citer == 1 && t.chC.erq && !t.irq.pend) = true ∧
    nextIs (exec .dmaC (vecC 1)) (fun t => t.port.data == 0x00#8 && t.chC.citer == 24 && t.chC.done && !t.chC.erq &&
      t.irq.pend) = true := by decide

/-! ## Completion, busy and time -/

/-- A frame whose interrupt is pending, at now = 1000. -/
def vecPend : State := { vecInit with inFlight := true, irq := { pend := true, en := true }, now := 1000 }

/-- C-1, C-3. -/
theorem test_irq_completion :
    nextIs (exec .irqCompletion vecPend) (fun t => !t.irq.pend && !t.inFlight && t.completedAt == some 1000 &&
      t.trace == [.irq 1000]) = true ∧
    nextIs (exec .irqCompletion vecInit) (fun t => t.completedAt == none && t.trace == []) = true := by decide
/-- S-14, C-2: masked, and not enabled. -/
theorem test_irq_completion_held :
    nextIs (exec .irqCompletion { vecPend with imask := true }) (fun t => t.irq.pend && t.inFlight) = true ∧
    nextIs (exec .irqCompletion { vecPend with irq := { pend := true, en := false } }) (fun t => t.irq.pend) = true := by
  decide
/-- E3: true at 1049, false at 1050. -/
theorem test_busy_gap :
    nextIs (exec .busy { vecInit with completedAt := some 1000, now := 1049 }) (fun t => t.trace == [.busy true]) = true ∧
    nextIs (exec .busy { vecInit with completedAt := some 1000, now := 1050 }) (fun t => t.trace == [.busy false]) = true := by
  decide
/-- E3: right after INIT, and right after SH_ARM; B-11. -/
theorem test_busy :
    nextIs (exec .busy vecInit) (fun t => t.trace == [.busy false]) = true ∧
    nextIs (exec .busy vecArmed) (fun t => t.trace == [.busy true]) = true ∧
    nextIs (exec .busy vecReset) (fun t => lastFault t == some (5, .none)) = true := by decide
/-- M-1, M-2. -/
theorem test_time :
    nextIs (exec (.time 3) { vecReset with now := 7 }) (fun t => t.now == 10) = true ∧
    nextIs (exec (.time 0) { vecReset with now := 7 }) (fun t => t.now == 7 && t.refused) = true := by decide

/-! ## The format, the text and the timing figures -/

/-- E4: 0xA5, and the transposition vector 0x49. -/
theorem test_lanes :
    (List.finRange 8).map (stripBit 0xA5#8) = [true, false, true, false, false, true, false, true] ∧
    packLanes #v[true, false, false, true, false, false, true, false] = 0x49#8 := by decide
/-- R103: lines of program P4. -/
theorem test_parse_p4 :
    (parseLine vecParams 24 "INIT N=1, base=0x20000000, size=48, rate=800k".toList).toOption =
      some [.init 1 0x20000000#32 48 0] ∧
    (parseLine vecParams 24 "MEM_WRITE 0x20000018, 0x00     ; 0x20000018 is now the front half".toList).toOption =
      some [.memWrite 0x20000018#32 0x00#8] := by decide
/-- R104: FILL_DRAW for a draw half of three bytes. -/
theorem test_parse_fill_draw :
    (parseLine vecParams 3 "FILL_DRAW 0xFF".toList).toOption =
      some [.writeDraw 0 0xFF#8, .writeDraw 1 0xFF#8, .writeDraw 2 0xFF#8] := by decide
/-- 70 R262: one pixel at 800 kHz lasts 24 × 1.25 µs = 30 µs; the 400 kHz period is 2.5 µs. -/
theorem test_timing : pixelNs .rate800k = 30000 ∧ bitPeriodNs .rate400k = 2500 := by decide

/-! ## Witnesses: states and operands that meet the hypotheses of the statements, a line for each clause -/

/-- `i` answers a next state in `s`. -/
def runs (i : Instr) (s : State) : Bool := nextIs (exec i s) fun _ => true

/-- `step` answers a next state in `s`. -/
def steps (s : State) : Bool := nextIs (step s) fun _ => true

/-- A program record handed to HOST, whose turn is next. -/
def vecIssue (r : Record) : State := { vecReset with program := [r], turns := [.agent .host 0] }

/-- SwapExchangesTheRoles, PortPrimitivesWriteAndEmit, TimeOnlyAdvancesNow (d = 0 and d = 1), BackOffsetReturnsToTheFirstByte. -/
theorem witness_running :
    vecReset.running = true ∧ 1 ≤ 1 ∧ 0 = 0 ∧ 1 ≤ vecInit.len ∧ vecInit.running = true ∧ vecInit.initialized = true := by
  decide

/-- Power-on with time advanced to `k`. -/
def vecIdle (k : Nat) : State := { vecReset with now := k }

/-- A fair run from power-on: before INIT, with no operation to issue, CLK alone has an enabled step. -/
theorem witness_IsFairRun : IsFairRun vecIdle (fun _ => (.clk, 0)) where
  run := { enabled := fun _ => rfl, step := fun _ => rfl }
  fair := fun a k h => by
    have hk := h k (Nat.le_refl k)
    cases a
    case clk => exact ⟨k, Nat.le_refl k, rfl⟩
    all_goals exact absurd hk Bool.false_ne_true
  time := fun bound => ⟨bound, Nat.le_refl bound⟩

theorem witness_ReservedAndMisplacedCodesAreRefused :
    (fetch (vecIssue ⟨0x16#8, []⟩)).1 = some ⟨.program, ⟨0x16#8, []⟩⟩ ∧ (fetch (vecIssue ⟨0x16#8, []⟩)).2.running = true ∧
    (accept .program ⟨0x16#8, []⟩).toOption = none ∧ (∀ i : Instr, i.code ≠ 0x09#8) ∧ Instr.issuer .shArm = .scheduler ∧
    Issuer.program ≠ .dmaB ∧ Issuer.program ≠ .dmaA ∧ Issuer.program ≠ .dmaC := by
  refine ⟨by decide, by decide, by decide, fun i => ?_, by decide, by decide, by decide, by decide⟩
  cases i <;> simp [Instr.code]

theorem witness_StepRunsTheFetchedOperation :
    (fetch (vecIssue (encode .busy))).1 = some ⟨.program, encode .busy⟩ ∧
    (accept .program (encode .busy)).toOption = some .busy := by decide

/-- The state of each clause: a schedule that begins with the turn the clause names. -/
theorem witness_FetchTakesTheScheduledStep :
    [Turn.issue .program (encode .busy), .agent .clk 0, .agent .isr 0, .agent .dmaA 0, .agent .dmaB 0, .agent .dmaC 0,
      .agent .tmr 0, .agent .host 0].all (fun u => (fetch { vecIssue (encode .busy) with turns := [u] }).1.isSome) = true ∧
    (fetch { vecReset with turns := [.agent .host 0] }).1 = none ∧
    (fetch { vecShow .shArm with turns := [.agent .host 0] }).1 = some ⟨.scheduler, encode .shArm⟩ ∧
    vecReset.turns = [] := by decide

theorem witness_AFaultIsRecordedAloneAndHalts :
    nextIs (exec .busy vecReset) (fun t => t.faults != vecReset.faults) = true := by decide

theorem witness_ARefusalIsMarkedAloneAndHalts :
    vecReset.running = true ∧ nextIs (step (vecIssue ⟨0x09#8, []⟩)) (fun t => t.refused) = true := by decide

/-- The largest N (B-6) and the highest base (B-7), at both rates. -/
theorem witness_InitLeavesTheInitialState :
    vecReset.running = true ∧ vecReset.hostPhase = .ready ∧ vecReset.initialized = false ∧
    vecParams.code800k ≠ vecParams.code400k ∧ 24 * 1365 ≤ vecParams.maxCount ∧ 2 * (24 * 1365) ≤ 65520 ∧
    (0x20000000#32).toNat + 2 * (24 * 1365) ≤ 2 ^ 32 ∧ (0xFFFFFFD0#32).toNat + 2 * (24 * 1) ≤ 2 ^ 32 := by decide

/-- One line for each check, at its boundary. -/
theorem witness_InitRaisesTheFirstFaultThatApplies :
    vecInit.running = true ∧ vecInit.hostPhase = .ready ∧ vecInit.initialized = true ∧ vecReset.initialized = false ∧
    2 ≠ vecParams.code800k ∧ 2 ≠ vecParams.code400k ∧ 1 = vecParams.code400k ∧
    vecParams.maxCount < 24 * 1366 ∧ 24 * 1 ≤ vecParams.maxCount ∧ 47 < 2 * (24 * 1) ∧ 2 * (24 * 1) ≤ 48 ∧
    2 ^ 32 < (0xFFFFFFD1#32).toNat + 2 * (24 * 1) := by decide

theorem witness_InitZeroFillsBothHalves :
    vecReset.hostPhase = .ready ∧ nextIs (exec (.init 1 0xFFFFFFD0#32 48 1) vecReset) (fun t => t.faults == []) = true := by
  decide

theorem witness_SwapTwiceRestoresTheRoles : runs .swap vecInit = true ∧ Geometry vecInit := by decide

/-- WriteDrawStoresOneByte, ReadDrawEmitsTheByte, ReadDrawReturnsTheByteWritten, FillDrawFillsTheDrawHalf. Offsets L − 1 and L; the block's edge before a geometry is assumed; an uninitialised block. -/
theorem witness_WriteDrawAndReadDraw :
    vecReset.running = true ∧ vecReset.hostPhase = .ready ∧ vecReset.initialized = false ∧
    vecInit.running = true ∧ vecInit.hostPhase = .ready ∧ vecInit.initialized = true ∧ vecInit.len ≤ 24 ∧ 23 < vecInit.len ∧
    vecInit.inBlock (vecInit.draw + 23#32) = true ∧ Memory.wf vecInit.mem = true ∧ Geometry vecInit ∧
    State.inBlock { vecInit with draw := 0x20000019#32 } (0x20000019#32 + 23#32) = false := by decide

/-- MemWriteStoresOutsideTheFrontHalf, MemReadEmitsTheByte. The first and last byte of each half, and the bytes beside the block. -/
theorem witness_MemWriteAndMemRead :
    vecInit.inBlock 0x1FFFFFFF#32 = false ∧ vecInit.inBlock 0x20000030#32 = false ∧
    vecInit.inBlock 0x20000000#32 = true ∧ vecInit.inFront 0x20000017#32 = true ∧ vecInit.inBlock 0x20000017#32 = true ∧
    vecInit.inFront 0x20000018#32 = false ∧ vecInit.inBlock 0x2000002F#32 = true ∧ vecInit.inFront 0x2000002F#32 = false := by
  decide

theorem witness_ShowBeginsTheMicroSteps :
    (vecShow .shArm).running = true ∧ (vecShow .shArm).hostPhase ≠ .ready ∧ vecReset.hostPhase = .ready ∧
    vecReset.initialized = false ∧ vecInit.hostPhase = .ready ∧ vecInit.initialized = true := by decide

/-- The gap's boundary: 1050 − 1000 = RESET_GAP. -/
theorem witness_WaitsPassWhenTheirHoldEnds :
    (vecShow .shWaitInFlight).running = true ∧ (vecShow .shWaitInFlight).inFlight = false ∧
    (vecShow .shWaitGap).completedAt = none ∧ vecParams.resetGap ≤ 1050 - 1000 ∧ ¬vecParams.resetGap ≤ 1049 - 1000 := by decide

/-- ShSwapRepointsChannelB, MaskAndStopEnterTheCriticalSection, ShArmLaunchesTheFrame. -/
theorem witness_MicroSteps :
    (vecShow .shSwap).running = true ∧ (vecShow .shSwap).hostPhase = .shSwap ∧ (vecShow .shMask).hostPhase = .shMask ∧
    (vecShow .shAlignStop).hostPhase = .shAlignStop ∧ (vecShow .shAlignStop).tmr.run = true ∧
    (vecShow .shAlignStop).tmr.phase = .tail ∧ (vecShow .shArm).hostPhase = .shArm := by decide

/-- A state for each thing a step waits for. -/
theorem witness_StepsWaitForTheirTurn :
    (vecShow .shMask).running = true ∧ (vecShow .shMask).hostPhase ≠ .ready ∧ HostPhase.micro .shArm = some .shArm ∧
    (vecShow .shMask).hostPhase ≠ .shArm ∧ vecArmed.inFlight = true ∧ 1049 - 1000 < vecParams.resetGap ∧
    vecReset.tmr.run = false ∧ vecInit.tmr.phase ≠ .hiBoth ∧ vecInit.irq.pend = false ∧ vecReset.irq.en = false ∧
    vecReset.running = true ∧ vecReset.initialized = false := by decide

/-! The states below meet the frame invariant. -/

theorem frameInv_vecInit : FrameInv vecInit :=
  ⟨by decide, by decide, by decide, by decide, by decide, fun _ => ⟨by decide, by decide, by decide, by decide, by decide, by decide,
    by decide, by decide, by decide, by decide, by decide⟩⟩

theorem frameInv_vecReset : FrameInv vecReset :=
  ⟨by decide, by decide, by decide, by decide, by decide, fun h => absurd h (by decide)⟩

theorem frameInv_vecArmed : FrameInv vecArmed :=
  ⟨by decide, by decide, by decide, by decide, by decide, fun _ => ⟨by decide, by decide, by decide, by decide, by decide, by decide,
    by decide, by decide, by decide, by decide, by decide⟩⟩

theorem frameInv_vecPend : FrameInv vecPend :=
  ⟨by decide, by decide, by decide, by decide, by decide, fun _ => ⟨by decide, by decide, by decide, by decide, by decide, by decide,
    by decide, by decide, by decide, by decide, by decide⟩⟩

/-- Channel A's request is pending. -/
def vecRise : State := { vecArmed with tmr := ⟨true, .rate800k, .hiBoth⟩, ef := ⟨true, false, false⟩ }

theorem frameInv_vecRise : FrameInv vecRise :=
  ⟨by decide, by decide, by decide, by decide, by decide, fun _ => ⟨by decide, by decide, by decide, by decide, by decide, by decide,
    by decide, by decide, by decide, by decide, by decide⟩⟩

/-- SH_ARM is next, exactly RESET_GAP after the last completion. -/
def vecArming : State :=
  { vecShow .shArm with imask := true, tmr := ⟨false, .rate800k, .tail⟩, completedAt := some 0, now := 50 }

theorem frameInv_vecArming : FrameInv vecArming :=
  ⟨by decide, by decide, by decide, by decide, by decide, fun _ => ⟨by decide, by decide, by decide, by decide, by decide, by decide,
    by decide, by decide, by decide, by decide, by decide⟩⟩

theorem witness_ShowLaunchesTheDrawHalf :
    FrameInv vecInit ∧ vecInit.running = true ∧ vecInit.initialized = true ∧ vecInit.hostPhase = .ready ∧
    vecInit.txState = .idle ∧ vecInit.tmr.phase = .tail := ⟨frameInv_vecInit, by decide⟩

/-- The armed frame, with the request of edge `e` pending in the phase `p`, under STRICT. -/
def vecLate (p : Phase) : State :=
  { vecArmed with
    params := { vecParams with windowMode := .strict }, tmr := ⟨true, .rate800k, p⟩, ef := ⟨true, false, false⟩ }

/-- In each phase: the window open, and closed under STRICT. -/
theorem witness_EdgesAdvanceThePhaseAndSetTheirFlag :
    [Phase.tail, .hiBoth, .hiOne].all (fun p =>
      (vecLate p).running && (vecLate p).tmr.run && (vecLate p).tmr.phase == p && !(vecLate p).windowOK &&
      State.windowOK { vecLate p with ef := ⟨false, false, false⟩ }) = true := by decide

theorem witness_AnArmedRequestHoldsTheNextEdge :
    State.windowOK { vecArmed with ef := ⟨true, false, false⟩ } = false ∧ vecArmed.running = true ∧
    vecArmed.params.windowMode = .assumed := by decide

/-- EveryTransferFollowsItsDescriptor and the three statements on DMA_A, DMA_B, DMA_C. Counts 2 and 1, and a source outside the block. -/
theorem witness_Transfers :
    vecArmed.running = true ∧ vecArmed.chA.programmed (descriptor .a vecArmed.len vecArmed.front) ∧ vecArmed.chA.erq = true ∧
    vecArmed.chA.citer = 24 ∧ (vecB 0x20000017#32 0x3C#8 1).chB.programmed (descriptor .b 24 0x20000000#32) ∧
    (vecB 0x20000017#32 0x3C#8 1).ef.fall0 = true ∧ (vecB 0x20000017#32 0x3C#8 1).inBlock 0x20000017#32 = true ∧
    (vecB 0x20000030#32 0x3C#8 2).inBlock 0x20000030#32 = false ∧ (vecC 2).chC.programmed (descriptor .c 24 0x20000018#32) ∧
    (vecC 1).chC.erq = true ∧ (vecC 1).ef.fall1 = true ∧ (vecC 1).flag (vecC 1).chC.trig = true ∧ 1 ≤ (vecC 1).chC.citer := by
  decide

theorem witness_AChannelStepsOnlyWhenArmedAndRequested :
    runs .dmaA vecArmed = true ∧ ¬(vecArmed.chA.erq = true ∧ vecArmed.flag vecArmed.chA.trig = true) ∧
    runs .dmaB vecArmed = true ∧ ¬(vecArmed.chB.erq = true ∧ vecArmed.flag vecArmed.chB.trig = true) ∧
    runs .dmaC vecArmed = true ∧ ¬(vecArmed.chC.erq = true ∧ vecArmed.flag vecArmed.chC.trig = true) ∧
    runs .dmaC (vecC 1) = true := by decide

theorem witness_TheHandlerEndsTheFrame :
    vecPend.running = true ∧ vecPend.irq.pend = true ∧ vecPend.irq.en = true ∧ vecPend.imask = false := by decide

theorem witness_BusyReportsFlightOrGap :
    vecArmed.running = true ∧ vecArmed.hostPhase = .ready ∧ vecArmed.initialized = true ∧ vecArmed.inFlight = true ∧
    vecInit.inFlight = false ∧ vecInit.completedAt = none ∧ 1049 - 1000 < vecParams.resetGap ∧
    vecParams.resetGap ≤ 1050 - 1000 := by decide

/-- Each of the three transitions, and the hypotheses on its state. -/
theorem witness_OnlyThreeTransmissionTransitions :
    FrameInv vecPend ∧ 1 ≤ vecPend.params.resetGap ∧ Instr.issuer .irqCompletion = .scheduler ∧
    runs .irqCompletion vecPend = true ∧ vecPend.txState = .inFlight ∧
    nextIs (exec .irqCompletion vecPend) (fun t => t.txState == .resetGap) = true ∧
    nextIs (exec (.time 50) { vecInit with completedAt := some 0 }) (fun t => t.txState == .idle) = true ∧
    FrameInv vecArming ∧ Instr.issuer .shArm = .scheduler ∧ vecArming.txState = .idle ∧
    nextIs (exec .shArm vecArming) (fun t => t.txState == .inFlight) = true :=
  ⟨frameInv_vecPend, by decide, by decide, by decide, by decide, by decide, by decide, frameInv_vecArming, by decide⟩

/-- MemoryChangesOnlyWhereStored, OnlyInitConfigures, the four Writers statements, HostProgramCannotReachThePipeline and
NoOperationWritesTheFrontHalf. An operation of each kind that the frames name answers a next state. -/
theorem witness_Writers :
    runs (.writeDraw 23 0x80#8) vecInit = true ∧ runs (.memWrite 0x20000018#32 0x7E#8) vecInit = true ∧
    runs (.init 1 0x20000000#32 48 0) vecReset = true ∧ runs (.time 1) vecInit = true ∧ runs .busy vecInit = true ∧
    runs .shSwap (vecShow .shSwap) = true ∧ runs .shArm (vecShow .shArm) = true ∧ vecInit.initialized = true ∧
    vecInit.inFront 0x20000000#32 = true ∧ Instr.issuer .busy = .program := by decide

theorem witness_RecordsAreOnlyAppended : steps (vecIssue (encode .busy)) = true := by decide

theorem witness_BeforeInitOnlyInitAndTimeAct :
    vecReset.running = true ∧ Quiet vecReset ∧ vecReset.initialized = false ∧ Instr.issuer .showOp = .program ∧
    Instr.issuer .edgeRise ≠ .program ∧ Instr.issuer .swap ≠ .program ∧ Instr.issuer (.portSet 0x0F#8) ≠ .program := by
  decide

/-- The three EveryStepKeeps statements and FrameInvariantGivesTheFiveItems. -/
theorem witness_EveryStepKeeps :
    FrameInv vecInit ∧ Geometry vecInit ∧ Memory.wf vecInit.mem = true ∧
    steps { vecInit with turns := [.agent .tmr 0] } = true := ⟨frameInv_vecInit, by decide⟩

theorem witness_TheFrameInvariantOrdersChannelsAndLines :
    FrameInv vecRise ∧ vecRise.dmaReady .a = true ∧ vecRise.chB.erq = true ∧ FrameInv vecInit ∧ vecInit.initialized = true ∧
    vecInit.dmaErq = 0b000#3 ∧ FrameInv vecArming ∧ vecArming.hostPhase = .shArm ∧ vecArming.completedAt = some 0 :=
  ⟨frameInv_vecRise, by decide, by decide, frameInv_vecInit, by decide, by decide, frameInv_vecArming, by decide⟩

/-- The armed frame, its bytes 0x81 and then zeros, with a schedule of 24 bit-times (program P2, frame 1). -/
def vecFrame : State :=
  { vecArmed with
    mem := [(0x20000018, 0x81#8)]
    turns := (List.replicate 24 [.agent .tmr 0, .agent .dmaA 0, .agent .tmr 0, .agent .dmaB 0, .agent .tmr 0,
      .agent .dmaC 0]).flatten }

theorem frameInv_vecFrame : FrameInv vecFrame :=
  ⟨by decide, by decide, by decide, by decide, by decide, fun _ => ⟨by decide, by decide, by decide, by decide, by decide, by decide,
    by decide, by decide, by decide, by decide, by decide⟩⟩

theorem witness_FrameWaveformIsTheFrontHalf :
    FrameInv vecFrame ∧ Launched vecFrame ∧
    nextIs (Host.Core.run Sys2Proof.core 2 vecFrame) (fun t =>
      t.trace.filter Event.isIrq == [] && t.trace == [.port .dmaA .set 0xFF#8 0xFF#8]) = true :=
  ⟨frameInv_vecFrame, by decide⟩

/-- The clause on a pending interrupt: its premise is met only at the end of a frame, so this is the one long run. The events
are those of 95_test_vectors P2, frame 1. -/
theorem witness_FrameWaveform_pending :
    nextIs (Host.Core.run Sys2Proof.core 144 vecFrame) (fun t =>
      t.irq.pend && t.trace.filter Event.isIrq == [] &&
      t.trace == bitTimeEvents 0x81#8 ++ (List.replicate 23 (bitTimeEvents 0x00#8)).flatten) = true := by decide +kernel

theorem witness_AMisalignedLaunchLosesItsFirstPulse :
    let s : State := { vecArmed with tmr := ⟨true, .rate800k, .hiOne⟩ }
    s.running = true ∧ s.tmr.run = true ∧ s.tmr.phase = .hiOne ∧ Programmed s ∧ 2 ≤ s.len ∧ s.chA.erq = true ∧
    s.chB.erq = true ∧ s.chC.erq = true ∧ s.chA.citer = s.len ∧ s.chB.citer = s.len ∧ s.chC.citer = s.len ∧
    s.ef = ⟨false, false, false⟩ ∧ s.port.data = 0x00#8 := by decide

end Sys2Proof.Machine
end

section
/-! SUPPORT. Proofs of the statements on the scope of the model (spec 00_scope R10, R15 to R17, R20): what a fetch takes, what a
step waits for, what a HOST program cannot reach, and that power-on meets the invariants. -/

namespace Sys2Proof.Machine

/-! ## Power-on -/

theorem Params.witness_wf : Params.witness.wf = true := by decide

/-- The parameters meet their constraints, whichever of the two the definition takes (00_scope R10; log 4). -/
theorem Config.params_wf : Config.params.wf = true := by
  unfold Config.params
  split
  · assumption
  · exact Params.witness_wf

/-- No constraint of 00_scope R10 relates the two modes to anything else. -/
@[simp] theorem Params.wf_withModes (p : Params) (w : WindowMode) (a : AlignMode) :
    Params.wf { p with windowMode := w, alignMode := a } = p.wf := rfl

theorem State.reset_not_initialized : State.reset.initialized ≠ true := Bool.false_ne_true

theorem quiet_reset : Quiet State.reset := fun _ => ⟨rfl, rfl, rfl, rfl, rfl, rfl, rfl, rfl, rfl, rfl⟩

/-- Power-on meets the frame invariant: what the invariant asks of an initialised block is not asked yet. -/
theorem frameInv_reset : FrameInv State.reset :=
  ⟨rfl, rfl, rfl, quiet_reset, fun h => absurd h State.reset_not_initialized, fun h => absurd h State.reset_not_initialized⟩

/-- Settles O51: only the parameters are open, and they meet their constraints by `Config.params_wf`. -/
theorem resetMeetsTheInvariants : Obligations.ResetMeetsTheInvariants := by
  unfold Obligations.ResetMeetsTheInvariants
  exact ⟨frameInv_reset, rfl, (Params.wf_withModes _ _ _).trans Config.params_wf⟩

/-! ## Fetching -/

theorem fetch_of_issue {s : State} {issuer : Issuer} {r : Record} {rest : List Turn} (h : s.turns = .issue issuer r :: rest) :
    fetch s = (some { issuer := issuer, record := r }, { s with turns := rest }) := by
  simp only [fetch, nextTurn, h]

theorem fetch_of_agent {s : State} {a : Agent} {d : Nat} {rest : List Turn} (h : s.turns = .agent a d :: rest) :
    fetch s = agentTurn { s with turns := rest } a d := by
  simp only [fetch, nextTurn, h]

/-- Where the schedule is empty the free value chooses (00_scope R16; log 5). -/
theorem fetch_of_no_turn {s : State} (h : s.turns = []) :
    fetch s = agentTurn { s with draws := s.draws + 1 } (Config.freeTurn s.draws).1 (Config.freeTurn s.draws).2 := by
  simp only [fetch, nextTurn, h]

theorem hostTurn_of_micro {s : State} {i : Instr} (h : s.hostPhase.micro = some i) :
    hostTurn s = (some { issuer := .scheduler, record := encode i }, s) := by
  simp only [hostTurn, h, scheduled]

theorem hostTurn_of_program {s : State} {r : Record} {rs : List Record} (hp : s.hostPhase = .ready) (h : s.program = r :: rs) :
    hostTurn s = (some { issuer := .program, record := r }, { s with program := rs }) := by
  simp only [hostTurn, hp, HostPhase.micro, h]

theorem hostTurn_of_done {s : State} (hp : s.hostPhase = .ready) (h : s.program = []) : hostTurn s = (none, s) := by
  simp only [hostTurn, hp, HostPhase.micro, h]

/-- The edge that leaves a phase, asked phase by phase. -/
theorem edgeAfter_eq_ite (p : Phase) :
    edgeAfter p = if p = .tail then .edgeRise else if p = .hiBoth then .edgeFall0 else .edgeFall1 := by
  cases p <;> rfl

/-- Settles O5: the frame is `fetch_frame`; each clause on a schedule takes its first decision, and HOST's turn then goes by
SHOW's position and the program. -/
theorem fetchTakesTheScheduledStep : Obligations.FetchTakesTheScheduledStep := by
  unfold Obligations.FetchTakesTheScheduledStep
  intro s
  refine ⟨fetch_frame s, fun _ _ _ h => fetch_of_issue h, fun _ _ h => fetch_of_agent h, fun _ _ h => fetch_of_agent h,
    fun _ _ h => fetch_of_agent h, fun _ _ h => fetch_of_agent h, fun _ _ h => fetch_of_agent h, fun _ _ h => ?tmr,
    fun _ _ _ _ h hp hr => (fetch_of_agent h).trans (hostTurn_of_program hp hr),
    fun _ _ h hp hr => (fetch_of_agent h).trans (hostTurn_of_done hp hr),
    fun _ _ _ h hm => (fetch_of_agent h).trans (hostTurn_of_micro hm), fun h => ⟨_, _, fetch_of_no_turn h⟩⟩
  case tmr => rw [← edgeAfter_eq_ite]; exact fetch_of_agent h

/-! ## Steps that wait

For each way a step can be held, the state it leaves is the one it began in (log 1). -/

theorem hostStep_held {s : State} (t : State) (h : s.hostPhase ≠ .ready) : hostStep s t = s := if_neg h

theorem onceInit_held {s : State} (t : State) (h : s.initialized = false) : onceInit s t = s := by simp [onceInit, h]

theorem microStep_held {s : State} {p : HostPhase} {ready : Bool} (t : State) (h : s.hostPhase ≠ p ∨ ready = false) :
    microStep s p ready t = s := by
  rcases microStep_cases s p ready t with ⟨hp, hr, _⟩ | ⟨_, he⟩
  · simp [hp, hr] at h
  · exact he

theorem edgeEffect_held {s : State} {e : Edge} (i : Instr) (h : s.tmr.run = false ∨ s.tmr.phase ≠ e.source) :
    edgeEffect s i e = s := by
  rcases edgeEffect_cases s i e with ⟨hr, hp, _⟩ | ⟨hr, hp, _⟩ | ⟨_, he⟩
  · simp [hr, hp] at h
  · simp [hr, hp] at h
  · exact he

theorem State.irqReady_eq_false_iff (s : State) :
    s.irqReady = false ↔ s.irq.pend = false ∨ s.irq.en = false ∨ s.imask = true := by
  simp only [State.irqReady, Bool.and_eq_false_iff, Bool.not_eq_false', or_assoc]

theorem State.gapRunning_of_completedAt {s : State} {c : Nat} (h : s.completedAt = some c) :
    s.gapRunning = decide (s.now - c < s.params.resetGap) := by
  simp only [State.gapRunning, h]

theorem alignAdmits_assumed {p : Phase} (h : p ≠ .tail) : alignAdmits .assumed p = false := by
  cases p with
  | tail => exact absurd rfl h
  | hiBoth => rfl
  | hiOne => rfl

/-- Every operation of a program but SHOW goes through the wait for READY (00_scope R17). -/
theorem exec_eq_hostStep_of_program {i : Instr} (s : State) (hi : i.issuer = .program) (hs : i ≠ .showOp) :
    ∃ t, exec i s = settle s (hostStep s t) := by
  cases i with
  | init => exact ⟨_, rfl⟩
  | writeDraw => exact ⟨_, rfl⟩
  | readDraw => exact ⟨_, rfl⟩
  | memWrite => exact ⟨_, rfl⟩
  | memRead => exact ⟨_, rfl⟩
  | busy => exact ⟨_, rfl⟩
  | showOp => exact absurd rfl hs
  | _ => cases hi

/-- Every micro-step of SHOW goes through the wait for its own position (43_sequencer R171 to R176). -/
theorem exec_eq_microStep_of_micro {p : HostPhase} {i : Instr} (s : State) (h : p.micro = some i) :
    ∃ ready t, exec i s = settle s (microStep s p ready t) := by
  cases p with
  | ready => cases h
  | _ => cases h; exact ⟨_, _, rfl⟩

/-- A step that ends in the state it began in is a next state of a running block. -/
theorem settle_held {s t : State} (h : s.running = true) (ht : t = s) : settle s t = .next s := by
  rw [ht]; exact settle_running s h

/-- Settles O24: each operation goes through one of the shared waits, which holds it in the case the clause names. -/
theorem stepsWaitForTheirTurn : Obligations.StepsWaitForTheirTurn := by
  unfold Obligations.StepsWaitForTheirTurn
  intro s hrun
  refine ⟨?program, ?micro, ?inFlight, ?gap, ?align, fun h => settle_held hrun (edgeEffect_held _ h),
    fun h => settle_held hrun (edgeEffect_held _ h), fun h => settle_held hrun (edgeEffect_held _ h), ?handler, fun h => ?beforeInit⟩
  case program =>
    intro i hi hs hp
    obtain ⟨t, ht⟩ := exec_eq_hostStep_of_program s hi hs
    exact ht.trans (settle_held hrun (hostStep_held t hp))
  case micro =>
    intro p i hi hp
    obtain ⟨ready, t, ht⟩ := exec_eq_microStep_of_micro s hi
    exact ht.trans (settle_held hrun (microStep_held t (.inl hp)))
  case inFlight => exact fun h => settle_held hrun (microStep_held _ (.inr (by simp [h])))
  case gap =>
    intro c hc hlt
    have hgap : s.gapRunning = true := (State.gapRunning_of_completedAt hc).trans (decide_eq_true hlt)
    exact settle_held hrun (microStep_held _ (.inr (by simp [hgap])))
  case align =>
    intro h
    refine settle_held hrun (microStep_held _ (.inr ?_))
    rcases h with hstop | ⟨hmode, hphase⟩
    · rw [hstop, Bool.false_and]
    · rw [hmode, alignAdmits_assumed hphase, Bool.and_false]
  case handler =>
    intro h
    have hready : s.irqReady = false := (State.irqReady_eq_false_iff s).mpr h
    exact settle_held hrun (by rw [hready]; rfl)
  case beforeInit =>
    exact ⟨settle_held hrun (onceInit_held _ h), fun v => ⟨settle_held hrun (onceInit_held _ h),
      settle_held hrun (onceInit_held _ h), settle_held hrun (onceInit_held _ h)⟩⟩

/-! ## What a HOST program cannot reach -/

/-- `t` has the port, timer, edge flags, descriptors, interrupt state, roles and transmission state of `s`: the parts of the state
that 00_scope R20 puts out of the reach of a program. -/
def PipelineKept (s t : State) : Prop :=
  t.port = s.port ∧ t.tmr = s.tmr ∧ t.ef = s.ef ∧ t.chA = s.chA ∧ t.chB = s.chB ∧ t.chC = s.chC ∧ t.irq = s.irq ∧
  t.imask = s.imask ∧ t.front = s.front ∧ t.draw = s.draw ∧ t.inFlight = s.inFlight ∧ t.completedAt = s.completedAt

theorem PipelineKept.refl (s : State) : PipelineKept s s := by simp [PipelineKept]

theorem PipelineKept.raise (s : State) (i : Instr) (c : FaultCode) (n : FaultInfo) : PipelineKept s (raise s i c n) := by
  simp [PipelineKept]

theorem PipelineKept.emit (s : State) (e : Event) : PipelineKept s (s.emit e) := by simp [PipelineKept]

theorem PipelineKept.memWrite (s : State) (i : Instr) (a : Addr) (v : Byte) : PipelineKept s (s.memWrite i a v) := by
  rcases State.memWrite_cases s i a v with ⟨_, h⟩ | ⟨_, h⟩
  · rw [h]; simp [PipelineKept]
  · rw [h]; exact .raise ..

theorem PipelineKept.readEffect (s : State) (i : Instr) (a : Addr) : PipelineKept s (readEffect s i a) := by
  rcases readEffect_cases s i a with ⟨_, h⟩ | ⟨_, h⟩
  · rw [h]; exact .emit ..
  · rw [h]; exact .raise ..

theorem PipelineKept.ite {s t u : State} {c : Prop} [Decidable c] (ht : PipelineKept s t) (hu : PipelineKept s u) :
    PipelineKept s (if c then t else u) := by
  split
  · exact ht
  · exact hu

theorem PipelineKept.hostStep {s t : State} (h : PipelineKept s t) : PipelineKept s (hostStep s t) := .ite h (.refl s)

theorem PipelineKept.afterInit {s t : State} (i : Instr) (h : PipelineKept s t) : PipelineKept s (afterInit s i t) :=
  .ite h (.raise ..)

theorem PipelineKept.of_settle {s t u : State} (h : settle s u = .next t) (hu : PipelineKept s u) : PipelineKept s t :=
  (settle_next_iff.mp h).2 ▸ hu

/-- SHOW's issue step moves HOST into SHOW and nothing else (43_sequencer R170). -/
theorem PipelineKept.showEffect (s : State) : PipelineKept s (showEffect s) :=
  .ite (.raise ..) (.afterInit _ (by simp [PipelineKept]))

/-- A second INIT raises F_REINIT before anything else (60_exceptions R219). -/
theorem initChecked_of_initialized {s : State} (n : Nat) (base : Addr) (size rate : Nat) (h : s.initialized = true) :
    initChecked s n base size rate = raise s (.init n base size rate) .reinit .none :=
  if_pos h

/-- The effect of each operation of a program, on an initialised block. -/
theorem exec_program_keepsPipeline {s t : State} {i : Instr} (h : exec i s = .next t) (hinit : s.initialized = true)
    (hi : i.issuer = .program) : PipelineKept s t := by
  cases i with
  | init n base size rate =>
    exact .of_settle h (.hostStep (initChecked_of_initialized n base size rate hinit ▸ .raise ..))
  | writeDraw off val => exact .of_settle h (.hostStep (.afterInit _ (.ite (.raise ..) (.memWrite ..))))
  | readDraw off => exact .of_settle h (.hostStep (.afterInit _ (.ite (.raise ..) (.readEffect ..))))
  | memWrite addr val => exact .of_settle h (.hostStep (.afterInit _ (.ite (.raise ..) (.ite (.raise ..) (.memWrite ..)))))
  | memRead addr => exact .of_settle h (.hostStep (.afterInit _ (.readEffect ..)))
  | showOp => exact .of_settle h (.showEffect s)
  | busy => exact .of_settle h (.hostStep (.afterInit _ (.emit ..)))
  | _ => cases hi

/-- Settles O47: what a program's operation does is a raise, a store, an event or a move of HOST into SHOW. -/
theorem hostProgramCannotReachThePipeline : Obligations.HostProgramCannotReachThePipeline := by
  unfold Obligations.HostProgramCannotReachThePipeline
  exact fun s t i h hinit hi => exec_program_keepsPipeline h hinit hi

end Sys2Proof.Machine
end

section
/-! SUPPORT. Proofs of the statements on memory (spec 20_memory R71, R75, R82, R84): what each operation stores, that the stores
keep the canonical form and stay out of the front half, and that a byte written to the draw half is the one read back. -/

namespace Sys2Proof.Machine

/-! ## What an operation stores -/

/-- INIT raises a fault, or passes every check of 41_buffer_manager R130 and has its effect. -/
theorem initChecked_cases (s : State) (n : Nat) (base : Addr) (size rate : Nat) :
    (∃ c f, initChecked s n base size rate = raise s (.init n base size rate) c f) ∨
    (∃ r, s.initialized = false ∧ rateOf s.params rate = some r ∧ n ≠ 0 ∧ 24 * n ≤ s.params.maxCount ∧
      2 * (24 * n) ≤ size ∧ base.toNat + 2 * (24 * n) ≤ 2 ^ 32 ∧
      initChecked s n base size rate = initEffect s n base size r) := by
  unfold initChecked
  split
  · exact .inl ⟨_, _, rfl⟩
  next hinit =>
  split
  · exact .inl ⟨_, _, rfl⟩
  next r hr =>
  split
  · exact .inl ⟨_, _, rfl⟩
  next hn =>
  split
  · exact .inl ⟨_, _, rfl⟩
  next hcount =>
  split
  · exact .inl ⟨_, _, rfl⟩
  next hsize =>
  split
  · exact .inl ⟨_, _, rfl⟩
  next hwrap =>
  exact .inr ⟨r, Bool.eq_false_iff.mpr hinit, hr, hn, Nat.not_lt.mp hcount, Nat.not_lt.mp hsize, Nat.not_lt.mp hwrap, rfl⟩

/-- Operation `i`, executed in `s`, can leave memory `m` (20_memory R75): as it was; or, after the checks the store stands behind,
with the one byte WRITE_DRAW or MEM_WRITE stores, or with the block INIT fills. -/
inductive Stores (s : State) : Instr → Memory → Prop where
  | nothing (i : Instr) : Stores s i s.mem
  | writeDraw (off : Nat) (val : Byte) (hinit : s.initialized = true) (hoff : off < s.len) :
    Stores s (.writeDraw off val) (Memory.write s.mem (s.drawAddr off).toNat val)
  | memWrite (addr : Addr) (val : Byte) (hinit : s.initialized = true) (hfront : s.inFront addr = false) :
    Stores s (.memWrite addr val) (Memory.write s.mem addr.toNat val)
  | init (n : Nat) (base : Addr) (size rate : Nat) (hinit : s.initialized = false) :
    Stores s (.init n base size rate) (Memory.zeroFill s.mem base.toNat (base.toNat + 2 * (24 * n)))

theorem Stores.of_mem_eq {s t : State} {i : Instr} (h : t.mem = s.mem) : Stores s i t.mem := h ▸ .nothing i

theorem Stores.ite {s t u : State} {i : Instr} {c : Prop} [Decidable c] (ht : c → Stores s i t.mem)
    (hu : ¬c → Stores s i u.mem) : Stores s i (if c then t else u).mem := by
  split
  · exact ht ‹c›
  · exact hu ‹¬c›

theorem Stores.hostStep {s t : State} {i : Instr} (h : Stores s i t.mem) : Stores s i (hostStep s t).mem :=
  .ite (fun _ => h) (fun _ => .nothing i)

theorem Stores.afterInit {s t : State} {i j : Instr} (h : s.initialized = true → Stores s i t.mem) :
    Stores s i (afterInit s j t).mem :=
  .ite h (fun _ => .nothing i)

theorem Stores.onceInit {s t : State} {i : Instr} (h : Stores s i t.mem) : Stores s i (onceInit s t).mem :=
  .ite (fun _ => h) (fun _ => .nothing i)

theorem Stores.microStep {s t : State} {i : Instr} {p : HostPhase} {ready : Bool} (h : Stores s i t.mem) :
    Stores s i (microStep s p ready t).mem :=
  .ite (fun _ => h) (fun _ => .nothing i)

/-- A byte write stores its byte or raises F_RANGE. -/
theorem Stores.byteWrite {s : State} {i j : Instr} {a : Addr} {v : Byte}
    (h : Stores s i (Memory.write s.mem a.toNat v)) : Stores s i (s.memWrite j a v).mem :=
  .ite (fun _ => h) (fun _ => .nothing i)

theorem Stores.readEffect (s : State) (i j : Instr) (a : Addr) : Stores s i (readEffect s j a).mem := by
  rcases readEffect_cases s j a with ⟨_, h⟩ | ⟨_, h⟩
  · exact .of_mem_eq (by rw [h, State.emit_mem])
  · exact .of_mem_eq (by rw [h, raise_mem])

theorem Stores.initChecked (s : State) (n : Nat) (base : Addr) (size rate : Nat) :
    Stores s (.init n base size rate) (initChecked s n base size rate).mem := by
  rcases initChecked_cases s n base size rate with ⟨c, f, h⟩ | ⟨r, hinit, -, -, -, -, -, h⟩
  · exact .of_mem_eq (by rw [h, raise_mem])
  · rw [h, initEffect_mem]
    exact .init n base size rate hinit

theorem Stores.edgeEffect (s : State) (i j : Instr) (e : Edge) : Stores s i (edgeEffect s j e).mem := by
  rcases edgeEffect_cases s j e with ⟨-, -, -, h⟩ | ⟨-, -, -, -, h⟩ | ⟨-, h⟩
  · exact .of_mem_eq (by rw [h, State.putFlag_mem])
  · exact .of_mem_eq (by rw [h, raise_mem])
  · exact .of_mem_eq (by rw [h])

/-- A transfer reads memory and never writes it (42_transmit_pipeline R152). -/
theorem xfer_mem (s : State) (i : Instr) (x : Chan) : (xfer s i x).mem = s.mem := by
  rcases xfer_frame s i x with h | ⟨-, h⟩
  · rw [h, raise_mem]
  · rw [h]

theorem Stores.dmaEffect (s : State) (i j : Instr) (x : Chan) : Stores s i (dmaEffect s j x).mem :=
  .ite (fun _ => .of_mem_eq (xfer_mem s j x)) (fun _ => .nothing i)

theorem Stores.of_settle {s t u : State} {i : Instr} (h : settle s u = .next t) (hu : Stores s i u.mem) : Stores s i t.mem :=
  (settle_next_iff.mp h).2 ▸ hu

/-- What each operation leaves in memory. -/
theorem exec_stores {s t : State} {i : Instr} (h : exec i s = .next t) : Stores s i t.mem := by
  cases i with
  | init n base size rate => exact .of_settle h (.hostStep (.initChecked ..))
  | writeDraw off val =>
    refine .of_settle h (.hostStep (.afterInit fun hinit => .ite (fun _ => .nothing _) fun hoff => .byteWrite ?_))
    exact .writeDraw off val hinit (Nat.not_le.mp hoff)
  | readDraw off => exact .of_settle h (.hostStep (.afterInit fun _ => .ite (fun _ => .nothing _) fun _ => .readEffect ..))
  | memWrite addr val =>
    refine .of_settle h (.hostStep (.afterInit fun hinit => .ite (fun _ => .nothing _) fun _ =>
      .ite (fun _ => .nothing _) fun hfront => .byteWrite ?_))
    exact .memWrite addr val hinit (Bool.eq_false_iff.mpr hfront)
  | memRead addr => exact .of_settle h (.hostStep (.afterInit fun _ => .readEffect ..))
  | showOp => exact .of_settle h (.ite (fun _ => .nothing _) fun _ => .afterInit fun _ => .nothing _)
  | busy => exact .of_settle h (.hostStep (.afterInit fun _ => .nothing _))
  | swap => exact .of_settle h (.onceInit (.nothing _))
  | shWaitInFlight | shSwap | shWaitGap | shMask | shAlignStop | shArm => exact .of_settle h (.microStep (.nothing _))
  | edgeRise | edgeFall0 | edgeFall1 => exact .of_settle h (.edgeEffect ..)
  | dmaA | dmaB | dmaC => exact .of_settle h (.dmaEffect ..)
  | irqCompletion => exact .of_settle h (.ite (fun _ => .nothing _) fun _ => .nothing _)
  | time d => exact .of_settle h (.ite (fun _ => .nothing _) fun _ => .nothing _)
  | portData v | portSet v | portClear v => exact .of_settle h (.onceInit (.nothing _))

/-! ## The bytes outside a store -/

theorem Stores.read_of_writeDraw {s : State} {off : Nat} {val : Byte} {m : Memory} (h : Stores s (.writeDraw off val) m) {a : Nat}
    (ha : a ≠ (s.drawAddr off).toNat) : Memory.read m a = Memory.read s.mem a := by
  cases h with
  | nothing => rfl
  | writeDraw => exact Memory.read_write_other val ha.symm

theorem Stores.read_of_memWrite {s : State} {addr : Addr} {val : Byte} {m : Memory} (h : Stores s (.memWrite addr val) m)
    {a : Nat} (ha : a ≠ addr.toNat) : Memory.read m a = Memory.read s.mem a := by
  cases h with
  | nothing => rfl
  | memWrite => exact Memory.read_write_other val ha.symm

theorem Stores.read_of_init {s : State} {n : Nat} {base : Addr} {size rate : Nat} {m : Memory}
    (h : Stores s (.init n base size rate) m) {a : Nat} (ha : ¬(base.toNat ≤ a ∧ a < base.toNat + 2 * (24 * n))) :
    Memory.read m a = Memory.read s.mem a := by
  cases h with
  | nothing => rfl
  | init => rw [Memory.read_zeroFill, if_neg ha]

/-- An operation that is none of the three storing ones stores nothing. -/
theorem Stores.eq_of_not_storing {s : State} {i : Instr} {m : Memory} (h : Stores s i m)
    (hdraw : ∀ off val, i ≠ .writeDraw off val) (hmem : ∀ addr val, i ≠ .memWrite addr val)
    (hinit : ∀ n base size rate, i ≠ .init n base size rate) : m = s.mem := by
  cases h with
  | nothing => rfl
  | writeDraw off val => exact absurd rfl (hdraw off val)
  | memWrite addr val => exact absurd rfl (hmem addr val)
  | init n base size rate => exact absurd rfl (hinit n base size rate)

/-- Settles O40: what an operation stores is `exec_stores`, and each store leaves the bytes outside it alone. -/
theorem memoryChangesOnlyWhereStored : Obligations.MemoryChangesOnlyWhereStored := by
  unfold Obligations.MemoryChangesOnlyWhereStored
  intro s t i h
  have hst : Stores s i t.mem := exec_stores h
  refine ⟨?writeDraw, ?memWrite, ?init, hst.eq_of_not_storing⟩
  case writeDraw => rintro off val rfl a; exact hst.read_of_writeDraw
  case memWrite => rintro addr val rfl a; exact hst.read_of_memWrite
  case init => rintro n base size rate rfl a; exact hst.read_of_init

/-! ## The canonical form -/

theorem Stores.wf {s : State} {i : Instr} {m : Memory} (h : Stores s i m) (hwf : Memory.wf s.mem = true) :
    Memory.wf m = true := by
  cases h with
  | nothing => exact hwf
  | writeDraw off val => exact Memory.wf_write val (s.drawAddr off).isLt hwf
  | memWrite addr val => exact Memory.wf_write val addr.isLt hwf
  | init => exact Memory.wf_zeroFill _ _ hwf

theorem mem_of_fetch {s t : State} {o : Option Issued} (h : fetch s = (o, t)) : t.mem = s.mem :=
  calc t.mem = (fetch s).2.mem := by rw [h]
    _ = s.mem := by rw [fetch_frame]

/-- Settles O52: a step executes an operation in the state the fetch leaves, or stores nothing. -/
theorem everyStepKeepsMemoryCanonical : Obligations.EveryStepKeepsMemoryCanonical := by
  unfold Obligations.EveryStepKeepsMemoryCanonical
  intro s t hwf h
  rcases step_cases s with ⟨u, hf, he⟩ | ⟨o, u, i, hf, -, he⟩ | ⟨o, u, e, hf, -, he⟩ <;> rw [he] at h
  · rwa [(settle_next_iff.mp h).2, mem_of_fetch hf]
  · exact (exec_stores h).wf ((mem_of_fetch hf).symm ▸ hwf)
  · rwa [(settle_next_iff.mp h).2, refuse_mem, mem_of_fetch hf]

/-! ## The two halves -/

/-- The two roles in natural numbers, where neither half wraps (10_state R33; 41_buffer_manager R136). -/
theorem Geometry.roles_toNat {s : State} (hg : Geometry s) (hinit : s.initialized = true) :
    s.base.toNat + 2 * s.len ≤ 2 ^ 32 ∧
    ((s.front.toNat = s.base.toNat ∧ s.draw.toNat = s.base.toNat + s.len) ∨
     (s.front.toNat = s.base.toNat + s.len ∧ s.draw.toNat = s.base.toNat)) := by
  obtain ⟨-, hlen, hpix, hblock, hroles⟩ := hg hinit
  have hhalf : (s.base + BitVec.ofNat 32 s.len).toNat = s.base.toNat + s.len := by
    rw [BitVec.toNat_add, BitVec.toNat_ofNat]; omega
  refine ⟨hblock, ?_⟩
  rcases hroles with ⟨hf, hd⟩ | ⟨hf, hd⟩
  · exact .inl ⟨by rw [hf], by rw [hd, hhalf]⟩
  · exact .inr ⟨by rw [hf, hhalf], by rw [hd]⟩

section
variable {s : State} (hg : Geometry s) (hinit : s.initialized = true) {off : Nat} (hoff : off < s.len)
include hg hinit hoff

theorem Geometry.drawAddr_toNat : (s.drawAddr off).toNat = s.draw.toNat + off := by
  obtain ⟨hblock, hroles⟩ := Geometry.roles_toNat hg hinit
  rw [State.drawAddr, BitVec.toNat_add, BitVec.toNat_ofNat]
  omega

theorem Geometry.drawAddr_inBlock : s.inBlock (s.drawAddr off) = true := by
  obtain ⟨-, hroles⟩ := Geometry.roles_toNat hg hinit
  rw [State.inBlock_iff, Geometry.drawAddr_toNat hg hinit hoff]
  omega

theorem Geometry.drawAddr_not_inFront : s.inFront (s.drawAddr off) = false := by
  obtain ⟨-, hroles⟩ := Geometry.roles_toNat hg hinit
  rw [State.inFront, Geometry.drawAddr_toNat hg hinit hoff, Bool.and_eq_false_iff, decide_eq_false_iff_not,
    decide_eq_false_iff_not]
  omega

end

theorem toNat_ne_of_inFront {s : State} {a b : Addr} (ha : s.inFront a = true) (hb : s.inFront b = false) :
    a.toNat ≠ b.toNat := by
  intro h
  rw [BitVec.eq_of_toNat_eq h, hb] at ha
  exact Bool.noConfusion ha

/-- On an initialised block a store lands outside the front half. -/
theorem Stores.read_front {s : State} {i : Instr} {m : Memory} (h : Stores s i m) (hinit : s.initialized = true)
    (hg : Geometry s) {a : Addr} (ha : s.inFront a = true) : Memory.read m a.toNat = Memory.read s.mem a.toNat := by
  cases h with
  | nothing => rfl
  | writeDraw off val _ hoff =>
    exact Memory.read_write_other val (toNat_ne_of_inFront ha (Geometry.drawAddr_not_inFront hg hinit hoff)).symm
  | memWrite addr val _ hfront => exact Memory.read_write_other val (toNat_ne_of_inFront ha hfront).symm
  | init _ _ _ _ hnot => rw [hinit] at hnot; exact Bool.noConfusion hnot

/-- Settles O48: of the storing operations INIT faults once initialised, MEM_WRITE is barred from the front half, and WRITE_DRAW
stores in the other half. -/
theorem noOperationWritesTheFrontHalf : Obligations.NoOperationWritesTheFrontHalf := by
  unfold Obligations.NoOperationWritesTheFrontHalf
  exact fun s t i h hinit hg a ha => (exec_stores h).read_front hinit hg ha

/-! ## Writing and reading back -/

/-- A HOST operation at READY on an initialised block ends as its body says (00_scope R17; 60_exceptions R211). -/
theorem settle_hostStep_afterInit {s : State} (i : Instr) (t : State) (hrun : s.running = true) (hready : s.hostPhase = .ready)
    (hinit : s.initialized = true) : settle s (hostStep s (afterInit s i t)) = .next t := by
  rw [hostStep, if_pos hready, afterInit, if_pos hinit, settle_running t hrun]

theorem exec_writeDraw_inBlock {s : State} {off : Nat} (val : Byte) (hrun : s.running = true) (hready : s.hostPhase = .ready)
    (hinit : s.initialized = true) (hoff : off < s.len) (hin : s.inBlock (s.drawAddr off) = true) :
    exec (.writeDraw off val) s = .next { s with mem := Memory.write s.mem (s.drawAddr off).toNat val } := by
  refine (settle_hostStep_afterInit _ _ hrun hready hinit).trans ?_
  rw [if_neg (Nat.not_le.mpr hoff), State.memWrite, if_pos hin]

theorem exec_readDraw_inBlock {s : State} {off : Nat} {val : Byte} (hrun : s.running = true) (hready : s.hostPhase = .ready)
    (hinit : s.initialized = true) (hoff : off < s.len) (hin : s.inBlock (s.drawAddr off) = true)
    (hval : Memory.read s.mem (s.drawAddr off).toNat = val) :
    exec (.readDraw off) s = .next { s with trace := s.trace ++ [.read (s.drawAddr off) val] } := by
  refine (settle_hostStep_afterInit _ _ hrun hready hinit).trans ?_
  rw [if_neg (Nat.not_le.mpr hoff), readEffect, State.memRead_eq_some.mpr ⟨hin, hval⟩]
  rfl

/-- Settles O15: under the geometry every offset below L is in the block, so the write runs; it changes no part of the state the
read's checks look at, and the read finds the byte in canonical memory. -/
theorem readDrawReturnsTheByteWritten : Obligations.ReadDrawReturnsTheByteWritten := by
  unfold Obligations.ReadDrawReturnsTheByteWritten
  intro s off val hrun hready hinit hg hwf hoff
  have hin : s.inBlock (s.drawAddr off) = true := Geometry.drawAddr_inBlock hg hinit hoff
  have hread : Memory.read (Memory.write s.mem (s.drawAddr off).toNat val) (s.drawAddr off).toNat = val :=
    Memory.read_write_same _ val hwf
  exact ⟨_, exec_writeDraw_inBlock val hrun hready hinit hoff hin, exec_readDraw_inBlock hrun hready hinit hoff hin hread⟩

end Sys2Proof.Machine
end

section
/-! SUPPORT. Proofs of the statements on the encoding (spec 30_encoding R91 to R104): records and operations, channel B's
back-offset, FILL_DRAW, and the lanes of a pixel-bit byte. -/

namespace Sys2Proof.Machine

/-! ## Records and operations -/

theorem decode_encode (i : Instr) : decode (encode i) = .ok i := by cases i <;> rfl

/-- A record is an operation's when its code, read as a number, and its operands are. -/
theorem eq_encode {r : Record} {i : Instr} (hop : r.op.toNat = i.code.toNat) (hargs : r.args = i.args) : r = encode i := by
  rw [encode, ← BitVec.eq_of_toNat_eq hop, ← hargs]

/-- An operation that takes no operands is read only from a record that has none. -/
theorem eq_encode_of_noOperands {r : Record} {i j : Instr} (h : decode.noOperands r j = .ok i)
    (hop : r.op.toNat = j.code.toNat) (hargs : j.args = []) : r = encode i := by
  unfold decode.noOperands at h
  split at h <;> cases h
  exact eq_encode hop (hargs ▸ ‹r.args = []›)

/-- Row by row of 30_encoding R99: the decoder reads an operation from the record with its code and its operands alone. -/
theorem eq_encode_of_decode {r : Record} {i : Instr} (h : decode r = .ok i) : r = encode i := by
  unfold decode at h
  split at h
  case h_26 => cases h
  case h_1 | h_2 | h_3 | h_4 | h_5 | h_22 | h_23 | h_24 | h_25 =>
    rename_i hop
    split at h <;> cases h
    exact eq_encode hop ‹r.args = _›
  all_goals exact eq_encode_of_noOperands h ‹r.op.toNat = _› rfl

theorem decode_eq_ok_iff {r : Record} {i : Instr} : decode r = .ok i ↔ r = encode i :=
  ⟨eq_encode_of_decode, fun h => h ▸ decode_encode i⟩

/-- Settles O1: the operation read from an operation's own record is that operation, and no other record is read as it. -/
theorem recordDecodesExactlyToItsOperation : Obligations.RecordDecodesExactlyToItsOperation := by
  unfold Obligations.RecordDecodesExactlyToItsOperation
  exact fun _ _ => decode_eq_ok_iff

/-- No two operations share a record (30_encoding R99). -/
theorem encode_injective : Function.Injective encode := fun i _ h =>
  Except.ok.inj ((decode_encode i).symm.trans (decode_eq_ok_iff.mpr h))

theorem decodeTableWord_eq_some_iff {nbits w : Nat} {i : Instr} :
    decodeTableWord nbits w = some i ↔ tableRecord nbits w = encode i := by
  rw [← decode_eq_ok_iff, decodeTableWord]
  cases decode (tableRecord nbits w) <;> simp

/-- Settles O2: each code with every operand zero is the record of its row's operation, and 0x09 is the code of none. -/
theorem tableCodesDecodeToTheirRows : Obligations.TableCodesDecodeToTheirRows := by
  unfold Obligations.TableCodesDecodeToTheirRows
  simp only [decodeTableWord_eq_some_iff]
  decide

/-! ## Accepting and refusing -/

/-- What is accepted is an operation's own record, from the issuer the table names (30_encoding R100). -/
theorem accept_eq_ok_iff {issuer : Issuer} {r : Record} {i : Instr} :
    accept issuer r = .ok i ↔ r = encode i ∧ i.issuer = issuer := by
  rw [← decode_eq_ok_iff, accept]
  cases decode r with
  | error e => simp
  | ok j =>
    by_cases hj : j.issuer = issuer
    · simp only [if_pos hj, Except.ok.injEq]
      exact ⟨fun h => ⟨h, h ▸ hj⟩, And.left⟩
    · simp only [if_neg hj, reduceCtorEq, Except.ok.injEq, false_iff]
      exact fun ⟨h, hi⟩ => hj (h ▸ hi)

theorem accept_ne_ok_of_code {r : Record} (h : ∀ i : Instr, i.code ≠ r.op) (issuer : Issuer) (i : Instr) :
    accept issuer r ≠ .ok i :=
  fun ha => h i (congrArg Record.op (accept_eq_ok_iff.mp ha).1).symm

theorem accept_encode_ne_ok {issuer : Issuer} {i : Instr} (h : i.issuer ≠ issuer) (j : Instr) :
    accept issuer (encode i) ≠ .ok j := fun ha => by
  obtain ⟨hrec, hj⟩ := accept_eq_ok_iff.mp ha
  exact h (encode_injective hrec ▸ hj)

/-- Settles O4: the fetch and the admission decide both branches of the step. -/
theorem stepRunsTheFetchedOperation : Obligations.StepRunsTheFetchedOperation := by
  unfold Obligations.StepRunsTheFetchedOperation
  intro s t o i hf ha
  simp only [step, hf, ha]

theorem step_of_not_accepted {s t : State} {o : Issued} (hf : fetch s = (some o, t)) (hrun : t.running = true)
    (ha : ∀ i, accept o.issuer o.record ≠ .ok i) : step s = .next (refuse t) := by
  cases he : accept o.issuer o.record with
  | ok i => exact absurd he (ha i)
  | error e => simp only [step, hf, he, settle_running _ hrun]

/-- Settles O3: what is accepted is an operation's own record from its own issuer; no reserved or misplaced record is. -/
theorem reservedAndMisplacedCodesAreRefused : Obligations.ReservedAndMisplacedCodesAreRefused := by
  unfold Obligations.ReservedAndMisplacedCodesAreRefused
  refine ⟨fun _ _ _ => step_of_not_accepted, fun issuer _ h => accept_ne_ok_of_code h issuer, fun i j h => ?misplaced,
    fun _ v j => ⟨fun h => accept_encode_ne_ok (i := .portData v) h.symm j,
      fun h => accept_encode_ne_ok (i := .portSet v) h.symm j, fun h => accept_encode_ne_ok (i := .portClear v) h.symm j⟩⟩
  case misplaced =>
    refine accept_encode_ne_ok ?_ j
    rcases h with rfl | h
    · decide
    · rw [h]; decide

/-! ## The back-offset -/

/-- `k` transfers advance the source by `k` source offsets and leave `k` fewer to make (42_transmit_pipeline R152). -/
theorem repeat_advance (c : Channel) (k : Nat) :
    Nat.repeat Channel.advance k c = { c with src := c.src + BitVec.ofNat 32 k * c.soff, citer := c.citer - k } := by
  induction k with
  | zero => simp [Nat.repeat]
  | succ k ih =>
    have hsrc : BitVec.ofNat 32 (k + 1) * c.soff = BitVec.ofNat 32 k * c.soff + c.soff := by
      rw [BitVec.ofNat_add, BitVec.add_mul, BitVec.one_mul]
    rw [Nat.repeat, ih, Channel.advance, hsrc, Nat.sub_sub, BitVec.add_assoc]

/-- The back-offset −L undoes L advances of one byte, modulo 2^32 (30_encoding R96). -/
theorem add_backOffset (a : Addr) (len : Nat) : a + BitVec.ofNat 32 len + backOffset len = a := by
  rw [backOffset, BitVec.add_assoc, BitVec.add_right_neg, BitVec.add_zero]

/-- Settles O35: channel B's source offset is 1, so k transfers advance it by k, and completion adds the back-offset. -/
theorem backOffsetReturnsToTheFirstByte : Obligations.BackOffsetReturnsToTheFirstByte := by
  unfold Obligations.BackOffsetReturnsToTheFirstByte
  intro a len _
  refine ⟨fun k _ => ?_, ?_⟩
  · simp [repeat_advance, descriptor]
  · simp [repeat_advance, descriptor, Channel.complete, add_backOffset]

/-! ## FILL_DRAW -/

/-- Memory with byte `b` at every address of a list, written in its order. -/
def Memory.fill (b : Byte) : List Addr → Memory → Memory
  | [], m => m
  | a :: as, m => Memory.fill b as (Memory.write m a.toNat b)

/-- After a fill the listed addresses read the byte, and every other address reads as before. -/
theorem Memory.read_fill (b : Byte) (as : List Addr) {m : Memory} (hwf : Memory.wf m = true) (a : Addr) :
    Memory.read (Memory.fill b as m) a.toNat = if a ∈ as then b else Memory.read m a.toNat := by
  induction as generalizing m with
  | nil => rfl
  | cons c as ih =>
    rw [Memory.fill, ih (Memory.wf_write b c.isLt hwf)]
    by_cases hc : c = a
    · subst hc
      simp [Memory.read_write_same _ b hwf]
    · rw [Memory.read_write_other b fun h => hc (BitVec.eq_of_toNat_eq h)]
      simp [Ne.symm hc]

/-- WRITE_DRAWs of one byte at offsets of the draw half, one after the other, fill their addresses (41_buffer_manager R140). -/
theorem execAll_writeDraw (b : Byte) (offs : List Nat) {s : State} (hrun : s.running = true) (hready : s.hostPhase = .ready)
    (hinit : s.initialized = true) (hg : Geometry s) (hoffs : ∀ k ∈ offs, k < s.len) :
    execAll (offs.map fun k => .writeDraw k b) s = .next { s with mem := Memory.fill b (offs.map s.drawAddr) s.mem } := by
  induction offs generalizing s with
  | nil => rfl
  | cons k offs ih =>
    obtain ⟨hk, hrest⟩ := List.forall_mem_cons.mp hoffs
    have hstep := exec_writeDraw_inBlock b hrun hready hinit hk (Geometry.drawAddr_inBlock hg hinit hk)
    simp only [List.map_cons, execAll, hstep]
    exact ih hrun hready hinit hg hrest

theorem Geometry.bitTimeAddr_inFront {s : State} (hg : Geometry s) (hinit : s.initialized = true) {k : Nat} (hk : k < s.len) :
    s.inFront (bitTimeAddr s.front k) = true := by
  obtain ⟨hblock, hroles⟩ := Geometry.roles_toNat hg hinit
  have haddr : (bitTimeAddr s.front k).toNat = s.front.toNat + k := by
    rw [bitTimeAddr, BitVec.toNat_add, BitVec.toNat_ofNat]
    omega
  simp only [State.inFront, haddr, Bool.and_eq_true, decide_eq_true_eq]
  omega

/-- Settles O60: the writes fill the addresses of the draw half, which are all its bytes and none of the front half's. -/
theorem fillDrawFillsTheDrawHalf : Obligations.FillDrawFillsTheDrawHalf := by
  unfold Obligations.FillDrawFillsTheDrawHalf
  intro s b hrun hready hinit hg hwf
  refine ⟨_, execAll_writeDraw b (List.range s.len) hrun hready hinit hg fun _ => List.mem_range.mp, ?draw, ?front, rfl⟩
  case draw =>
    refine List.eq_replicate_iff.mpr ⟨by rw [State.drawBytes, List.length_map, List.length_range]; rfl, fun v hv => ?_⟩
    obtain ⟨k, hk, rfl⟩ := List.mem_map.mp hv
    exact (Memory.read_fill b _ hwf _).trans (if_pos (List.mem_map_of_mem hk))
  case front =>
    refine List.map_congr_left fun k hk => (Memory.read_fill b _ hwf _).trans (if_neg fun h => ?_)
    obtain ⟨j, hj, haddr⟩ := List.mem_map.mp h
    have hfront := Geometry.bitTimeAddr_inFront hg hinit (List.mem_range.mp hk)
    have hdraw := Geometry.drawAddr_not_inFront hg hinit (List.mem_range.mp hj)
    exact toNat_ne_of_inFront hfront hdraw (congrArg BitVec.toNat haddr.symm)

/-! ## Lanes -/

theorem getLsbD_foldl_or {α : Type} (f : α → Byte) (as : List α) (b : Byte) (j : Nat) :
    (as.foldl (fun b a => b ||| f a) b).getLsbD j = (b.getLsbD j || as.any fun a => (f a).getLsbD j) := by
  induction as generalizing b with
  | nil => simp
  | cons a as ih => rw [List.foldl_cons, ih, BitVec.getLsbD_or, List.any_cons, Bool.or_assoc]

/-- A strip's bit, shifted to its lane, is in that lane alone. -/
theorem getLsbD_lane (bit : Bool) (s j : Fin 8) :
    ((if bit then 1#8 else 0#8) <<< s.val).getLsbD j.val = (bit && decide (s = j)) := by
  revert bit s j
  decide

theorem stripBit_packLanes (bits : Vector Bool 8) (s : Fin 8) : stripBit (packLanes bits) s = bits[s] := by
  rw [stripBit, packLanes, getLsbD_foldl_or, Bool.eq_iff_iff]
  simp only [getLsbD_lane]
  simp

theorem unpackLanes_packLanes (bits : Vector Bool 8) : unpackLanes (packLanes bits) = bits :=
  Vector.ext fun j hj => (Vector.getElem_ofFn hj).trans (stripBit_packLanes bits ⟨j, hj⟩)

theorem packLanes_unpackLanes (b : Byte) : packLanes (unpackLanes b) = b :=
  BitVec.eq_of_getLsbD_eq fun j hj => (stripBit_packLanes (unpackLanes b) ⟨j, hj⟩).trans (Vector.getElem_ofFn hj)

/-- Settles O59: each lane of a packed byte is its strip's bit, so packing and unpacking undo each other. -/
theorem lanesAndBytesAreInBijection : Obligations.LanesAndBytesAreInBijection := by
  unfold Obligations.LanesAndBytesAreInBijection
  exact ⟨stripBit_packLanes, packLanes_unpackLanes, unpackLanes_packLanes⟩

end Sys2Proof.Machine
end

section
/-! SUPPORT. Proofs of the statements on the waveform and the port (spec 40_waveform_and_lines R110 to R123): the service window,
the timer's edges and the port primitives. -/

namespace Sys2Proof.Machine

/-! ## The service window -/

theorem State.dmaReady_iff (s : State) (x : Chan) :
    s.dmaReady x = true ↔ (s.ch x).erq = true ∧ s.flag (s.ch x).trig = true := by
  rw [State.dmaReady, Bool.and_eq_true]

/-- The three conjuncts of the window are the channels, so its closing is one of them having a request to serve. -/
theorem State.windowOK_eq_false_iff (s : State) : s.windowOK = false ↔ ∃ x : Chan, s.dmaReady x = true := by
  simp only [State.windowOK, Bool.and_eq_false_iff, Bool.not_eq_false']
  constructor
  · rintro ((ha | hb) | hc)
    · exact ⟨.a, ha⟩
    · exact ⟨.b, hb⟩
    · exact ⟨.c, hc⟩
  · rintro ⟨x, hx⟩
    cases x with
    | a => exact .inl (.inl hx)
    | b => exact .inl (.inr hx)
    | c => exact .inr hx

/-! ## The timer's edges -/

/-- Under ASSUMED a closed window holds an edge, whatever the timer does (40_waveform_and_lines R114; log 1). -/
theorem edgeEffect_held_of_window {s : State} (i : Instr) (e : Edge) (hw : s.windowOK = false)
    (hm : s.params.windowMode = .assumed) : edgeEffect s i e = s := by
  rcases edgeEffect_cases s i e with ⟨_, _, hopen, _⟩ | ⟨_, _, _, hstrict, _⟩ | ⟨_, he⟩
  · simp [hw] at hopen
  · simp [hm] at hstrict
  · exact he

/-- An edge of the running timer, in the phase it leaves, with the window open. -/
theorem edgeEffect_open {s : State} {e : Edge} (i : Instr) (hrun : s.tmr.run = true) (hp : s.tmr.phase = e.source)
    (hw : s.windowOK = true) :
    edgeEffect s i e = State.putFlag { s with tmr := { s.tmr with phase := e.target } } e true := by
  rcases edgeEffect_cases s i e with ⟨_, _, _, he⟩ | ⟨_, _, hclosed, _⟩ | ⟨hheld, _⟩
  · exact he
  · simp [hw] at hclosed
  · simp [hrun, hp, hw] at hheld

/-- An edge of the running timer, in the phase it leaves, with the window closed under STRICT. -/
theorem edgeEffect_strict {s : State} {e : Edge} (i : Instr) (hrun : s.tmr.run = true) (hp : s.tmr.phase = e.source)
    (hw : s.windowOK = false) (hm : s.params.windowMode = .strict) :
    edgeEffect s i e = s.faulted .window (.edge e) i.agent i.code := by
  rcases edgeEffect_cases s i e with ⟨_, _, hopen, _⟩ | ⟨_, _, _, _, he⟩ | ⟨hheld, _⟩
  · simp [hw] at hopen
  · exact he
  · simp [hrun, hp, hm] at hheld

/-- The step of an edge in the phase it leaves, asked once for the three edges (40_waveform_and_lines R115 to R117). -/
theorem settle_edgeEffect {s : State} {e : Edge} (i : Instr) (hs : s.running = true) (hrun : s.tmr.run = true)
    (hp : s.tmr.phase = e.source) :
    (s.windowOK = true →
      settle s (edgeEffect s i e) = .next (State.putFlag { s with tmr := { s.tmr with phase := e.target } } e true)) ∧
    (s.windowOK = false → s.params.windowMode = .strict →
      settle s (edgeEffect s i e) = .next (s.faulted .window (.edge e) i.agent i.code)) := by
  rw [settle_running _ hs]
  exact ⟨fun hw => congrArg _ (edgeEffect_open i hrun hp hw), fun hw hm => congrArg _ (edgeEffect_strict i hrun hp hw hm)⟩

/-- Settles O27: the window is closed by a channel that is ready, and a closed window holds each edge under ASSUMED. -/
theorem anArmedRequestHoldsTheNextEdge : Obligations.AnArmedRequestHoldsTheNextEdge := by
  unfold Obligations.AnArmedRequestHoldsTheNextEdge
  intro s
  refine ⟨(State.windowOK_eq_false_iff s).trans (exists_congr (State.dmaReady_iff s)), fun hs hm hw => ?_⟩
  have hheld (i : Instr) (e : Edge) : settle s (edgeEffect s i e) = .next s :=
    settle_held hs (edgeEffect_held_of_window i e hw hm)
  exact ⟨hheld .edgeRise .rise, hheld .edgeFall0 .fall0, hheld .edgeFall1 .fall1⟩

/-- Settles O26: each of the three phases is the one its edge leaves. -/
theorem edgesAdvanceThePhaseAndSetTheirFlag : Obligations.EdgesAdvanceThePhaseAndSetTheirFlag := by
  unfold Obligations.EdgesAdvanceThePhaseAndSetTheirFlag
  exact fun s hs hrun => ⟨settle_edgeEffect (e := .rise) .edgeRise hs hrun, settle_edgeEffect (e := .fall0) .edgeFall0 hs hrun,
    settle_edgeEffect (e := .fall1) .edgeFall1 hs hrun⟩

/-! ## The port primitives -/

/-- A step that waits for INIT ends, on an initialised block, as its body says (70_reset_and_hazards R241). -/
theorem settle_onceInit {s : State} (t : State) (hs : s.running = true) (hinit : s.initialized = true) :
    settle s (onceInit s t) = .next t := by
  rw [onceInit, if_pos hinit, settle_running t hs]

/-- Settles O28: each primitive is a `State.portWrite` of its own channel and register, which writes `portAfter` and emits it. -/
theorem portPrimitivesWriteAndEmit : Obligations.PortPrimitivesWriteAndEmit := by
  unfold Obligations.PortPrimitivesWriteAndEmit
  intro s v hs hinit
  have hwrite (g : Agent) (reg : PortReg) : settle s (onceInit s (s.portWrite g reg v)) = .next (s.portWrite g reg v) :=
    settle_onceInit _ hs hinit
  exact ⟨hwrite .dmaB .data, hwrite .dmaA .set, hwrite .dmaC .clear⟩

end Sys2Proof.Machine
end

section
/-! SUPPORT. Proofs of the statements on the buffer manager (spec 41_buffer_manager R130 to R144; 60_exceptions R219): INIT's checks
and the state it leaves, the data operations of HOST, and SWAP. -/

namespace Sys2Proof.Machine

/-! ## A HOST operation at READY -/

theorem settle_hostStep {s : State} (t : State) (hrun : s.running = true) (hready : s.hostPhase = .ready) :
    settle s (hostStep s t) = .next t := by
  rw [hostStep, if_pos hready, settle_running t hrun]

/-- Before INIT every HOST operation but INIT raises F_NOT_INIT (60_exceptions R211). -/
theorem settle_hostStep_notInit {s : State} (i : Instr) (t : State) (hrun : s.running = true) (hready : s.hostPhase = .ready)
    (hinit : s.initialized = false) :
    settle s (hostStep s (afterInit s i t)) = .next (s.faulted .notInit .none i.agent i.code) := by
  rw [settle_hostStep _ hrun hready, afterInit, hinit]
  rfl

/-! ## INIT -/

theorem exec_init {s : State} (n : Nat) (base : Addr) (size rate : Nat) (hrun : s.running = true) (hready : s.hostPhase = .ready) :
    exec (.init n base size rate) s = .next (initChecked s n base size rate) :=
  settle_hostStep _ hrun hready

theorem rateOf_eq_none {p : Params} {rate : Nat} (h8 : rate ≠ p.code800k) (h4 : rate ≠ p.code400k) : rateOf p rate = none := by
  rw [rateOf, if_neg h8, if_neg h4]

theorem exists_rateOf_eq_some {p : Params} {rate : Nat} (h : rate = p.code800k ∨ rate = p.code400k) :
    ∃ r, rateOf p rate = some r := by
  unfold rateOf
  split
  · exact ⟨_, rfl⟩
  next h8 => exact ⟨_, if_pos (h.resolve_left h8)⟩

/-- With two distinct codes each names its own rate (30_encoding R97). -/
theorem rateOf_eq_some {p : Params} {rate : Nat} {r : Rate} (hne : p.code800k ≠ p.code400k)
    (h : (r = .rate800k ∧ rate = p.code800k) ∨ (r = .rate400k ∧ rate = p.code400k)) : rateOf p rate = some r := by
  rcases h with ⟨rfl, rfl⟩ | ⟨rfl, rfl⟩
  · exact if_pos rfl
  · rw [rateOf, if_neg hne.symm, if_pos rfl]

theorem initChecked_of_badRate {s : State} (n : Nat) (base : Addr) (size : Nat) {rate : Nat} (hinit : s.initialized = false)
    (hr : rateOf s.params rate = none) :
    initChecked s n base size rate = raise s (.init n base size rate) .badConfig (.rate rate) := by
  simp only [initChecked, hinit, hr, Bool.false_eq_true, if_false]

/-- The checks left once the block is known uninitialised and the rate good (60_exceptions R219). -/
theorem initChecked_of_rate {s : State} (n : Nat) (base : Addr) (size : Nat) {rate : Nat} {r : Rate}
    (hinit : s.initialized = false) (hr : rateOf s.params rate = some r) :
    initChecked s n base size rate =
      if n = 0 then raise s (.init n base size rate) .zeroLength .none
      else if s.params.maxCount < 24 * n then raise s (.init n base size rate) .countLimit (.pixels n)
      else if size < 2 * (24 * n) then raise s (.init n base size rate) .badSize (.size size)
      else if 2 ^ 32 < base.toNat + 2 * (24 * n) then raise s (.init n base size rate) .badSize (.base base)
      else initEffect s n base size r := by
  simp only [initChecked, hinit, hr, Bool.false_eq_true, if_false]

/-- Settles O10: INIT's step at READY is its checks; each clause takes the branch of the first that applies. -/
theorem initRaisesTheFirstFaultThatApplies : Obligations.InitRaisesTheFirstFaultThatApplies := by
  unfold Obligations.InitRaisesTheFirstFaultThatApplies
  intro s n base size rate hrun hready
  rw [exec_init n base size rate hrun hready]
  refine ⟨fun hinit => ?reinit, fun hinit h8 h4 => ?badConfig, fun hinit hrate hn => ?zeroLength,
    fun hinit hrate hn hcount => ?countLimit, fun hinit hrate hn hcount hsize => ?size,
    fun hinit hrate hn hcount hsize hwrap => ?wrap⟩
  case reinit => rw [initChecked_of_initialized n base size rate hinit]; rfl
  case badConfig => rw [initChecked_of_badRate n base size hinit (rateOf_eq_none h8 h4)]; rfl
  all_goals
    obtain ⟨r, hr⟩ := exists_rateOf_eq_some hrate
    rw [initChecked_of_rate n base size hinit hr]
  case zeroLength => rw [if_pos hn]; rfl
  all_goals rw [if_neg (Nat.pos_iff_ne_zero.mp hn)]
  case countLimit => rw [if_pos hcount]; rfl
  all_goals rw [if_neg (Nat.not_lt.mpr hcount)]
  case size => rw [if_pos hsize]; rfl
  case wrap => rw [if_neg (Nat.not_lt.mpr hsize), if_pos hwrap]; rfl

/-- Settles O9: with every check passed INIT has its effect, whose fields are the ones named; the zero fill is read by
`Memory.read_zeroFill`. -/
theorem initLeavesTheInitialState : Obligations.InitLeavesTheInitialState := by
  unfold Obligations.InitLeavesTheInitialState
  intro s n base size rate r hrun hready hinit hne hrate hn hcount hsize hwrap
  have hexec : exec (.init n base size rate) s = .next (initEffect s n base size r) := by
    rw [exec_init n base size rate hrun hready, initChecked_of_rate n base size hinit (rateOf_eq_some hne hrate),
      if_neg (Nat.pos_iff_ne_zero.mp hn), if_neg (Nat.not_lt.mpr hcount), if_neg (Nat.not_lt.mpr hsize),
      if_neg (Nat.not_lt.mpr hwrap)]
  refine ⟨_, hexec, rfl, rfl, rfl, rfl, fun a => ?_, ?_⟩
  · exact Memory.read_zeroFill s.mem base.toNat (base.toNat + 2 * (24 * n)) a
  · simp [descriptor, backOffset, hready]

theorem toNat_add_ofNat {a : Addr} {k : Nat} (h : a.toNat + k < 2 ^ 32) : (a + BitVec.ofNat 32 k).toNat = a.toNat + k := by
  rw [BitVec.toNat_add, BitVec.toNat_ofNat, Nat.add_mod_mod, Nat.mod_eq_of_lt h]

/-- INIT's zero fill covers every half, whose first byte is `first`, that lies in the block (41_buffer_manager R144). -/
theorem map_read_initEffect (s : State) {n : Nat} {base : Addr} (size : Nat) (r : Rate) (first : Addr)
    (hlo : base.toNat ≤ first.toNat) (hhi : first.toNat + 24 * n ≤ base.toNat + 2 * (24 * n))
    (hwrap : base.toNat + 2 * (24 * n) ≤ 2 ^ 32) :
    ((List.range (24 * n)).map fun k => Memory.read (initEffect s n base size r).mem (first + BitVec.ofNat 32 k).toNat) =
      List.replicate (24 * n) 0x00#8 := by
  refine List.eq_replicate_iff.mpr ⟨by rw [List.length_map, List.length_range], fun v hv => ?_⟩
  obtain ⟨k, hk, rfl⟩ := List.mem_map.mp hv
  have hk : k < 24 * n := List.mem_range.mp hk
  rw [initEffect_mem, Memory.read_zeroFill, toNat_add_ofNat (by omega), if_pos (by omega)]
  rfl

/-- Settles O11: an INIT that records no fault has passed its checks, so each half lies in the block it fills. -/
theorem initZeroFillsBothHalves : Obligations.InitZeroFillsBothHalves := by
  unfold Obligations.InitZeroFillsBothHalves
  intro s t n base size rate h hready hfaults
  obtain ⟨hrun, -⟩ := settle_next_iff.mp h
  rw [exec_init n base size rate hrun hready, Host.Outcome.next.injEq] at h
  subst h
  rcases initChecked_cases s n base size rate with ⟨c, f, he⟩ | ⟨r, -, -, hn, -, -, hwrap, he⟩
  · simp [he] at hfaults
  · have hdraw : (base + BitVec.ofNat 32 (24 * n)).toNat = base.toNat + 24 * n := toNat_add_ofNat (by omega)
    rw [he]
    exact ⟨map_read_initEffect s size r base (Nat.le_refl _) (by omega) hwrap,
      map_read_initEffect s size r (base + BitVec.ofNat 32 (24 * n)) (by omega) (by omega) hwrap⟩

/-! ## Reading and writing one byte -/

theorem State.memWrite_of_not_inBlock {s : State} (i : Instr) {a : Addr} (v : Byte) (h : s.inBlock a = false) :
    s.memWrite i a v = s.faulted .range (.addr a) i.agent i.code := by
  rw [State.memWrite, h]
  rfl

theorem readEffect_of_not_inBlock {s : State} (i : Instr) {a : Addr} (h : s.inBlock a = false) :
    readEffect s i a = s.faulted .range (.addr a) i.agent i.code := by
  rw [readEffect, State.memRead_eq_none.mpr h]
  rfl

theorem readEffect_of_inBlock {s : State} (i : Instr) {a : Addr} (h : s.inBlock a = true) :
    readEffect s i a = { s with trace := s.trace ++ [.read a (Memory.read s.mem a.toNat)] } := by
  rw [readEffect, State.memRead_eq_some.mpr ⟨h, rfl⟩]
  rfl

/-- The checks WRITE_DRAW and READ_DRAW share: F_NOT_INIT, then F_RANGE(off) (41_buffer_manager R140, R141). -/
theorem settle_offsetChecked {s : State} (i : Instr) (off : Nat) (t : State) (hrun : s.running = true)
    (hready : s.hostPhase = .ready) :
    let ended := settle s (hostStep s (afterInit s i (if s.len ≤ off then raise s i .range (.offset off) else t)))
    (s.initialized = false → ended = .next (s.faulted .notInit .none i.agent i.code)) ∧
    (s.initialized = true → s.len ≤ off → ended = .next (s.faulted .range (.offset off) i.agent i.code)) ∧
    (s.initialized = true → off < s.len → ended = .next t) := by
  refine ⟨settle_hostStep_notInit i _ hrun hready, fun hinit hoff => ?_, fun hinit hoff => ?_⟩
  · rw [settle_hostStep_afterInit i _ hrun hready hinit, if_pos hoff]; rfl
  · rw [settle_hostStep_afterInit i _ hrun hready hinit, if_neg (Nat.not_le.mpr hoff)]

/-- Settles O14: after the offset checks the store is `State.memWrite`, which asks for the block. -/
theorem writeDrawStoresOneByte : Obligations.WriteDrawStoresOneByte := by
  unfold Obligations.WriteDrawStoresOneByte
  intro s off val hrun hready
  obtain ⟨hnotInit, hrange, hpassed⟩ :=
    settle_offsetChecked (.writeDraw off val) off (s.memWrite (.writeDraw off val) (s.drawAddr off) val) hrun hready
  refine ⟨hnotInit, hrange, fun hinit hoff hin => (hpassed hinit hoff).trans ?outside, fun hinit hoff hin hwf => ?stored⟩
  case outside => exact congrArg _ (State.memWrite_of_not_inBlock _ val hin)
  case stored =>
    exact ⟨_, exec_writeDraw_inBlock val hrun hready hinit hoff hin, Memory.read_write_same _ val hwf,
      fun a ha => Memory.read_write_other val ha.symm⟩

/-- Settles O16: after the offset checks the read is `readEffect`, which asks for the block. -/
theorem readDrawEmitsTheByte : Obligations.ReadDrawEmitsTheByte := by
  unfold Obligations.ReadDrawEmitsTheByte
  intro s off hrun hready
  obtain ⟨hnotInit, hrange, hpassed⟩ :=
    settle_offsetChecked (.readDraw off) off (readEffect s (.readDraw off) (s.drawAddr off)) hrun hready
  exact ⟨hnotInit, hrange,
    fun hinit hoff hin => (hpassed hinit hoff).trans (congrArg _ (readEffect_of_not_inBlock _ hin)),
    fun hinit hoff hin => exec_readDraw_inBlock hrun hready hinit hoff hin rfl⟩

/-- Settles O17: the checks of R142 in order; past them the byte is in the block, so it is stored. -/
theorem memWriteStoresOutsideTheFrontHalf : Obligations.MemWriteStoresOutsideTheFrontHalf := by
  unfold Obligations.MemWriteStoresOutsideTheFrontHalf
  intro s addr val hrun hready
  refine ⟨settle_hostStep_notInit (.memWrite addr val) _ hrun hready, fun hinit hin => ?outside, fun hinit hin hfront => ?front,
    fun hinit hin hfront hwf => ⟨Memory.write s.mem addr.toNat val, ?stored, Memory.read_write_same _ val hwf,
      fun a ha => Memory.read_write_other val ha.symm⟩⟩
  all_goals
    refine (settle_hostStep_afterInit _ _ hrun hready hinit).trans ?_
    rw [hin]
  case outside => rfl
  case front => rw [hfront]; rfl
  case stored => rw [hfront, State.memWrite, if_pos hin]; rfl

/-- Settles O18: after the F_NOT_INIT check MEM_READ is `readEffect`, which asks for the block and nothing else. -/
theorem memReadEmitsTheByte : Obligations.MemReadEmitsTheByte := by
  unfold Obligations.MemReadEmitsTheByte
  intro s addr hrun hready
  exact ⟨settle_hostStep_notInit (.memRead addr) _ hrun hready,
    fun hinit hin => (settle_hostStep_afterInit _ _ hrun hready hinit).trans (congrArg _ (readEffect_of_not_inBlock _ hin)),
    fun hinit hin => (settle_hostStep_afterInit _ _ hrun hready hinit).trans (congrArg _ (readEffect_of_inBlock _ hin))⟩

/-! ## SWAP -/

/-- Settles O12: on an initialised block SWAP's step is its effect; the rest is its row of the table. -/
theorem swapExchangesTheRoles : Obligations.SwapExchangesTheRoles := by
  unfold Obligations.SwapExchangesTheRoles
  exact ⟨fun _ => settle_onceInit _, rfl, rfl, rfl⟩

theorem Geometry.swapEffect {s : State} (hg : Geometry s) : Geometry (swapEffect s) := by
  intro hinit
  obtain ⟨hcfg, hlen, hpix, hblock, hroles⟩ := hg hinit
  exact ⟨hcfg, hlen, hpix, hblock, hroles.symm.imp And.symm And.symm⟩

/-- Settles O13: SWAP exchanges the roles of an initialised block, and is held before INIT. -/
theorem swapTwiceRestoresTheRoles : Obligations.SwapTwiceRestoresTheRoles := by
  unfold Obligations.SwapTwiceRestoresTheRoles
  intro s t h
  obtain ⟨hrun, rfl⟩ := settle_next_iff.mp h
  rcases onceInit_cases s (swapEffect s) with ⟨hinit, he⟩ | ⟨-, he⟩
  · rw [he]
    exact ⟨settle_onceInit (s := swapEffect s) _ hrun hinit, rfl, Geometry.swapEffect⟩
  · rw [he] at h ⊢
    exact ⟨h, rfl, id⟩

end Sys2Proof.Machine
end

section
/-! SUPPORT. Proofs of the statements on the transmit pipeline (spec 42_transmit_pipeline R151 to R164): one transfer of a channel by
its descriptor, the three channels as INIT programs them, and what the frame invariant says of them. -/

namespace Sys2Proof.Machine

/-! ## The lanes of a transfer -/

theorem portAfter_set_ones (data : Byte) : portAfter data .set 0xFF#8 = 0xFF#8 := BitVec.or_allOnes

theorem portAfter_clear_ones (data : Byte) : portAfter data .clear 0xFF#8 = 0x00#8 := BitVec.and_zero

/-- Settles O29: SET 0xFF leaves 0xFF and CLEAR 0xFF leaves 0x00, whatever the lines were; DATA leaves its byte. -/
theorem transfersActLaneByLane : Obligations.TransfersActLaneByLane := by
  unfold Obligations.TransfersActLaneByLane
  intro data b s
  rw [portAfter_set_ones, portAfter_clear_ones]
  refine ⟨?_, rfl, ?_⟩ <;> revert s <;> decide

/-! ## A channel's step -/

/-- The operation that is channel `x`'s step (30_encoding R99). -/
def Chan.op : Chan → Instr
  | .a => .dmaA
  | .b => .dmaB
  | .c => .dmaC

theorem Chan.op_agent (x : Chan) : x.op.agent = x.agent := by cases x <;> rfl

theorem exec_op (s : State) (x : Chan) : exec x.op s = settle s (dmaEffect s x.op x) := by cases x <;> rfl

/-- A channel that is not both armed and requested is held (42_transmit_pipeline R151; log 1). -/
theorem exec_op_held {s t : State} {x : Chan} (h : exec x.op s = .next t)
    (hidle : ¬((s.ch x).erq = true ∧ s.flag (s.ch x).trig = true)) : t = s := by
  rw [exec_op] at h
  obtain ⟨-, rfl⟩ := settle_next_iff.mp h
  rcases dmaEffect_cases s x.op x with ⟨hready, -⟩ | ⟨-, he⟩
  · exact absurd ((State.dmaReady_iff s x).mp hready) hidle
  · exact he

/-- The descriptor after a transfer: advanced, and completed where it was the frame's last (42_transmit_pipeline R152, R156). -/
def Channel.afterTransfer (c : Channel) : Channel := if c.citer ≤ 1 then c.advance.complete else c.advance

/-- The state a transfer of byte `v` by channel `x` leaves: the port written, the request consumed, the descriptor as
`Channel.afterTransfer` says, and the interrupt pending where the last transfer asks for it (R152, R156, R158). -/
def State.served (s : State) (x : Chan) (v : Byte) : State :=
  State.setCh
    ((({ s with irq := { s.irq with pend := s.irq.pend || ((s.ch x).intmaj && decide ((s.ch x).citer ≤ 1)) } } : State).portWrite
      x.agent (s.ch x).dst v).clearFlag (s.ch x).trig)
    x (s.ch x).afterTransfer

theorem completeChannel_setCh (s : State) (x : Chan) (c : Channel) :
    completeChannel (s.setCh x c) x =
      State.setCh { s with irq := { s.irq with pend := s.irq.pend || c.intmaj } } x c.complete := by
  unfold completeChannel
  rw [State.ch_setCh, if_pos rfl]
  cases c.intmaj <;> cases x <;> simp [State.setCh]

/-- A transfer with a source byte leaves `State.served`. -/
theorem xfer_eq_served {s : State} {x : Chan} {v : Byte} (i : Instr) (hbyte : s.sourceByte x = some v) :
    xfer s i x = s.served x v := by
  rcases xfer_cases s i x with ⟨hnone, -⟩ | ⟨w, hw, hmore, he⟩ | ⟨w, hw, hlast, he⟩
  · rw [hbyte] at hnone; cases hnone
  · obtain rfl : v = w := Option.some.inj (hbyte.symm.trans hw)
    have hle : ¬(s.ch x).citer ≤ 1 := by omega
    rw [he, State.served, Channel.afterTransfer, if_neg hle, decide_eq_false hle, Bool.and_false, Bool.or_false]
  · obtain rfl : v = w := Option.some.inj (hbyte.symm.trans hw)
    have hle : (s.ch x).citer ≤ 1 := by omega
    rw [he, completeChannel_setCh, State.served, Channel.afterTransfer, if_pos hle, decide_eq_true hle, Bool.and_true]
    cases (s.ch x).trig <;> rfl

section
variable {s : State} {x : Chan} (hrun : s.running = true) (herq : (s.ch x).erq = true)
  (hflag : s.flag (s.ch x).trig = true)
include hrun herq hflag

theorem exec_op_ready : exec x.op s = .next (xfer s x.op x) := by
  rw [exec_op, dmaEffect, if_pos ((State.dmaReady_iff s x).mpr ⟨herq, hflag⟩), settle_running _ hrun]

/-- A source outside the block raises F_RANGE with no other effect (42_transmit_pipeline R152). -/
theorem exec_op_outside (hk : (s.ch x).konst = none) (hin : s.inBlock (s.ch x).src = false) :
    exec x.op s = .next (s.faulted .range (.addr (s.ch x).src) x.agent x.op.code) := by
  have hbyte : s.sourceByte x = none := by rw [State.sourceByte, hk]; exact State.memRead_eq_none.mpr hin
  rw [exec_op_ready hrun herq hflag, xfer, hbyte, ← Chan.op_agent]
  rfl

theorem exec_op_served {v : Byte} (hbyte : s.sourceByte x = some v) : exec x.op s = .next (s.served x v) := by
  rw [exec_op_ready hrun herq hflag, xfer_eq_served x.op hbyte]

end

theorem State.sourceByte_of_konst {s : State} {x : Chan} {v : Byte} (hk : (s.ch x).konst = some v) : s.sourceByte x = some v := by
  rw [State.sourceByte, hk]

theorem State.sourceByte_of_inBlock {s : State} {x : Chan} {v : Byte} (hk : (s.ch x).konst = none)
    (hin : s.inBlock (s.ch x).src = true) (hv : v = Memory.read s.mem (s.ch x).src.toNat) : s.sourceByte x = some v := by
  rw [State.sourceByte, hk]
  exact State.memRead_eq_some.mpr ⟨hin, hv.symm⟩

/-! ## What a served request leaves -/

section
variable (s : State) (x : Chan) (v : Byte)

@[simp] theorem State.served_port :
    (s.served x v).port = { s.port with data := portAfter s.port.data (s.ch x).dst v } := by simp [State.served]

@[simp] theorem State.served_trace :
    (s.served x v).trace = s.trace ++ [.port x.agent (s.ch x).dst v (portAfter s.port.data (s.ch x).dst v)] := by
  simp [State.served]

@[simp] theorem State.served_irq :
    (s.served x v).irq = { s.irq with pend := s.irq.pend || ((s.ch x).intmaj && decide ((s.ch x).citer ≤ 1)) } := by
  simp [State.served]

theorem State.ch_served (y : Chan) : (s.served x v).ch y = if y = x then (s.ch x).afterTransfer else s.ch y := by
  rw [State.served, State.ch_setCh, State.ch_clearFlag, State.ch_portWrite]
  cases y <;> rfl

theorem State.flag_served (e : Edge) : (s.served x v).flag e = if e = (s.ch x).trig then false else s.flag e := by
  have hset (t : State) (c : Channel) : (t.setCh x c).flag e = t.flag e := by cases x <;> cases e <;> rfl
  rw [State.served, hset, State.clearFlag, State.flag_putFlag]
  cases e <;> rfl

/-- A transfer writes the port, the flags, the descriptors, the interrupt and the trace, and nothing else. -/
theorem State.served_frame :
    s.served x v =
      { s with
        port := (s.served x v).port, ef := (s.served x v).ef, chA := (s.served x v).chA, chB := (s.served x v).chB,
        chC := (s.served x v).chC, irq := (s.served x v).irq, trace := (s.served x v).trace } :=
  State.eq_of_pipeline_frame (by simp [State.served])

end

section
variable {c : Channel}

theorem Channel.afterTransfer_of_more (hmore : 2 ≤ c.citer) :
    c.afterTransfer = { c with src := c.src + c.soff, citer := c.citer - 1 } := if_neg (by omega)

theorem Channel.afterTransfer_of_last (hlast : c.citer = 1) (herq : c.erq = true) :
    c.afterTransfer = { c with src := c.src + c.soff + c.slast, citer := c.biter, done := true, erq := !c.dreq } := by
  rw [Channel.afterTransfer, if_pos (Nat.le_of_eq hlast)]
  simp [Channel.complete, Channel.advance, herq]

end

theorem portAfter_eq_ite (data : Byte) (reg : PortReg) (v : Byte) :
    portAfter data reg v = if reg = .set then data ||| v else if reg = .clear then data &&& ~~~v else v := by
  cases reg <;> rfl

/-- Settles O30: an enabled transfer leaves `State.served`, whose fields are as the statement says, with the descriptor of
`Channel.afterTransfer`. -/
theorem everyTransferFollowsItsDescriptor : Obligations.EveryTransferFollowsItsDescriptor := by
  unfold Obligations.EveryTransferFollowsItsDescriptor
  intro s x i hi hrun herq hflag _
  obtain rfl : i = x.op := by rcases hi with ⟨rfl, rfl⟩ | ⟨rfl, rfl⟩ | ⟨rfl, rfl⟩ <;> rfl
  refine ⟨exec_op_outside hrun herq hflag, fun v hv => ?_⟩
  have hbyte : s.sourceByte x = some v := hv.elim State.sourceByte_of_konst fun ⟨hk, hin, hread⟩ =>
    State.sourceByte_of_inBlock hk hin hread
  have hself : (s.served x v).ch x = (s.ch x).afterTransfer := (State.ch_served s x v x).trans (if_pos rfl)
  refine ⟨s.served x v, exec_op_served hrun herq hflag hbyte, ?data, by rw [State.served_port],
    by rw [State.served_trace, State.served_port], State.flag_served s x v,
    fun y hy => (State.ch_served s x v y).trans (if_neg hy), fun hmore => ⟨?more, ?moreIrq⟩, fun hlast => ⟨?last, ?lastIrq⟩,
    State.served_frame s x v⟩
  case data => rw [State.served_port, portAfter_eq_ite]
  case more => exact hself.trans (Channel.afterTransfer_of_more hmore)
  case last => exact hself.trans (Channel.afterTransfer_of_last hlast herq)
  case moreIrq => simp [Nat.not_le.mpr hmore]
  case lastIrq => simp [hlast]

/-! ## The three channels as INIT programs them -/

section
variable {c d : Channel} (hprog : c.programmed d)
include hprog

/-- The descriptor a programmed channel leaves before its last transfer, in the values INIT programs. -/
theorem Channel.programmed.afterTransfer_of_more (hmore : 2 ≤ c.citer) :
    c.afterTransfer = { c with src := c.src + d.soff, citer := c.citer - 1 } := by
  obtain ⟨-, hsoff, -⟩ := hprog
  rw [← hsoff, Channel.afterTransfer_of_more hmore]

/-- The descriptor a programmed channel leaves at its last transfer, in the values INIT programs. -/
theorem Channel.programmed.afterTransfer_of_last (hlast : c.citer = 1) (herq : c.erq = true) :
    c.afterTransfer = { c with src := c.src + d.soff + d.slast, citer := d.biter, done := true, erq := !d.dreq } := by
  obtain ⟨-, hsoff, hslast, -, hbiter, hdreq, -⟩ := hprog
  rw [← hsoff, ← hslast, ← hbiter, ← hdreq, Channel.afterTransfer_of_last hlast herq]

end

/-- Settles O31: DMA_A's constant 0xFF goes to SET; its source does not move and no interrupt is asked for. -/
theorem dmaARaisesEveryLine : Obligations.DmaARaisesEveryLine := by
  unfold Obligations.DmaARaisesEveryLine
  intro s hrun hprog herq hrise _
  have ⟨hk, _, _, hdst, _, _, hintmaj, htrig⟩ := hprog
  have hexec : exec .dmaA s = .next (s.served .a 0xFF#8) :=
    exec_op_served (x := .a) hrun herq (by rw [State.ch, htrig]; exact hrise) (State.sourceByte_of_konst hk)
  have hserved : s.served .a 0xFF#8 = { s with
      port := { s.port with data := 0xFF#8 }, ef := { s.ef with rise := false }, chA := s.chA.afterTransfer
      trace := s.trace ++ [.port .dmaA .set 0xFF#8 0xFF#8] } := by
    simp only [State.served, State.ch, hdst, htrig, hintmaj, descriptor, Bool.false_and, Bool.or_false, State.portWrite,
      portAfter_set_ones]
    rfl
  rw [hexec, hserved]
  refine ⟨fun hmore => ?_, fun hlast => ?_⟩
  · rw [hprog.afterTransfer_of_more hmore]
    simp [descriptor]
  · rw [hprog.afterTransfer_of_last hlast herq]
    simp [descriptor]

/-- Settles O32: DMA_B's source byte goes to DATA; its source moves by one, and by the back-offset at the end. -/
theorem dmaBSendsTheNextByte : Obligations.DmaBSendsTheNextByte := by
  unfold Obligations.DmaBSendsTheNextByte
  intro s hrun hprog herq hfall0 _
  have ⟨hk, _, _, hdst, _, _, hintmaj, htrig⟩ := hprog
  have hflag : s.flag s.chB.trig = true := by rw [htrig]; exact hfall0
  refine ⟨exec_op_outside (x := .b) hrun herq hflag hk, fun v hin hv => ?_⟩
  have hexec : exec .dmaB s = .next (s.served .b v) :=
    exec_op_served (x := .b) hrun herq hflag (State.sourceByte_of_inBlock hk hin hv)
  have hserved : s.served .b v = { s with
      port := { s.port with data := v }, ef := { s.ef with fall0 := false }, chB := s.chB.afterTransfer
      trace := s.trace ++ [.port .dmaB .data v v] } := by
    simp only [State.served, State.ch, hdst, htrig, hintmaj, descriptor, Bool.false_and, Bool.or_false]
    rfl
  rw [hexec, hserved]
  refine ⟨fun hmore => ?_, fun hlast => ?_⟩
  · rw [hprog.afterTransfer_of_more hmore]
    simp [descriptor]
  · rw [hprog.afterTransfer_of_last hlast herq]
    simp [descriptor, backOffset, BitVec.sub_eq_add_neg]

/-- Settles O33: DMA_C's constant 0xFF goes to CLEAR; its source does not move and its last transfer asks for the interrupt. -/
theorem dmaCLowersEveryLineAndCompletes : Obligations.DmaCLowersEveryLineAndCompletes := by
  unfold Obligations.DmaCLowersEveryLineAndCompletes
  intro s hrun hprog herq hfall1 _
  have ⟨hk, _, _, hdst, _, _, hintmaj, htrig⟩ := hprog
  have hexec : exec .dmaC s = .next (s.served .c 0xFF#8) :=
    exec_op_served (x := .c) hrun herq (by rw [State.ch, htrig]; exact hfall1) (State.sourceByte_of_konst hk)
  have hserved : s.served .c 0xFF#8 = { s with
      port := { s.port with data := 0x00#8 }, ef := { s.ef with fall1 := false }, chC := s.chC.afterTransfer
      irq := { s.irq with pend := s.irq.pend || decide (s.chC.citer ≤ 1) }
      trace := s.trace ++ [.port .dmaC .clear 0xFF#8 0x00#8] } := by
    simp only [State.served, State.ch, hdst, htrig, hintmaj, descriptor, Bool.true_and, State.portWrite, portAfter_clear_ones]
    rfl
  rw [hexec, hserved]
  refine ⟨fun hmore => ?_, fun hlast => ?_⟩
  · rw [hprog.afterTransfer_of_more hmore]
    simp [descriptor, Nat.not_le.mpr hmore]
  · rw [hprog.afterTransfer_of_last hlast herq]
    simp [descriptor, hlast]

/-! ## What a channel does not look at -/

/-- The state with the interrupt mask and the timer's run bit at given values. -/
def State.withMaskAndRun (s : State) (m run : Bool) : State := { s with imask := m, tmr := { s.tmr with run := run } }

section
variable (s : State) (x : Chan) (m run : Bool)

theorem State.ch_withMaskAndRun : (s.withMaskAndRun m run).ch x = s.ch x := by cases x <;> rfl

theorem State.served_withMaskAndRun (v : Byte) :
    (s.withMaskAndRun m run).served x v = (s.served x v).withMaskAndRun m run := by
  rw [State.served, State.served, State.ch_withMaskAndRun]
  cases (s.ch x).trig <;> cases x <;> rfl

theorem xfer_withMaskAndRun (i : Instr) : xfer (s.withMaskAndRun m run) i x = (xfer s i x).withMaskAndRun m run := by
  have hbyte : (s.withMaskAndRun m run).sourceByte x = s.sourceByte x := by
    rw [State.sourceByte, State.ch_withMaskAndRun]; rfl
  cases h : s.sourceByte x with
  | none => rw [xfer, xfer, hbyte, h, State.ch_withMaskAndRun]; rfl
  | some v => rw [xfer_eq_served i (hbyte.trans h), xfer_eq_served i h, State.served_withMaskAndRun]

theorem dmaEffect_withMaskAndRun (i : Instr) :
    dmaEffect (s.withMaskAndRun m run) i x = (dmaEffect s i x).withMaskAndRun m run := by
  have hready : (s.withMaskAndRun m run).dmaReady x = s.dmaReady x := by cases x <;> rfl
  rw [dmaEffect, dmaEffect, hready, xfer_withMaskAndRun]
  split <;> rfl

end

/-- Settles O34: without a request a channel is held; its effect commutes with setting the mask and the run bit. -/
theorem aChannelStepsOnlyWhenArmedAndRequested : Obligations.AChannelStepsOnlyWhenArmedAndRequested := by
  unfold Obligations.AChannelStepsOnlyWhenArmedAndRequested
  intro s t
  refine ⟨exec_op_held (x := .a), exec_op_held (x := .b), exec_op_held (x := .c), fun m run i hi h => ?_⟩
  obtain ⟨x, rfl⟩ : ∃ x : Chan, i = x.op := by
    rcases hi with rfl | rfl | rfl
    · exact ⟨.a, rfl⟩
    · exact ⟨.b, rfl⟩
    · exact ⟨.c, rfl⟩
  rw [exec_op] at h
  obtain ⟨hrun, rfl⟩ := settle_next_iff.mp h
  exact (exec_op (s.withMaskAndRun m run) x).trans
    (settle_next_iff.mpr ⟨hrun, (dmaEffect_withMaskAndRun s x m run x.op).symm⟩)

/-! ## What the frame invariant says of the channels and the lines -/

/-- The edge that triggers channel `x` as INIT programs it (30_encoding R95). -/
def Chan.trigger : Chan → Edge
  | .a => .rise
  | .b => .fall0
  | .c => .fall1

theorem State.anyArmed_of_erq {s : State} {x : Chan} (h : (s.ch x).erq = true) : s.anyArmed = true := by
  cases x <;> simp_all [State.anyArmed, State.ch]

theorem Programmed.trig {s : State} (h : Programmed s) (x : Chan) : (s.ch x).trig = x.trigger := by
  obtain ⟨⟨-, -, -, -, -, -, -, ha⟩, ⟨-, -, -, -, -, -, -, hb⟩, ⟨-, -, -, -, -, -, -, hc⟩⟩ := h
  cases x with
  | a => exact ha
  | b => exact hb
  | c => exact hc

/-- While a channel is armed, an edge flag that is set stands in the phase its edge enters (42_transmit_pipeline R159). -/
theorem Lockstep.phase_of_flag {s : State} (h : Lockstep s) (harmed : s.anyArmed = true) {e : Edge} (hflag : s.flag e = true) :
    s.tmr.phase = e.target := by
  obtain ⟨-, hhiBoth, hhiOne, htail⟩ := h
  cases hp : s.tmr.phase
  case' hiBoth => obtain ⟨hother, hother', -⟩ := hhiBoth harmed hp
  case' hiOne => obtain ⟨hother, hother', -⟩ := hhiOne harmed hp
  case' tail => obtain ⟨hother, hother', -⟩ := htail harmed hp
  all_goals cases e <;> simp_all [State.flag, Edge.target]

theorem Chan.trigger_target_injective : Function.Injective fun x : Chan => x.trigger.target := by
  intro x y h
  cases x <;> cases y <;> cases h <;> rfl

/-- Nothing is armed before INIT (70_reset_and_hazards R240). -/
theorem Quiet.initialized_of_erq {s : State} (h : Quiet s) {x : Chan} (herq : (s.ch x).erq = true) : s.initialized = true := by
  cases hinit : s.initialized with
  | true => rfl
  | false =>
    obtain ⟨-, -, -, -, ha, hb, hc, -⟩ := h hinit
    have hidle : (s.ch x).erq = false := by
      cases x with
      | a => exact ha
      | b => exact hb
      | c => exact hc
    rw [hidle] at herq
    cases herq

/-- SHOW is not in progress before INIT (70_reset_and_hazards R240). -/
theorem Quiet.initialized_of_hostPhase {s : State} (h : Quiet s) (hphase : s.hostPhase ≠ .ready) : s.initialized = true := by
  cases hinit : s.initialized with
  | true => rfl
  | false =>
    obtain ⟨-, -, -, -, -, -, -, -, -, hready⟩ := h hinit
    exact absurd hready hphase

theorem Geometry.inBlock_of_inFront {s : State} (hg : Geometry s) (hinit : s.initialized = true) {a : Addr}
    (h : s.inFront a = true) : s.inBlock a = true := by
  obtain ⟨-, hroles⟩ := Geometry.roles_toNat hg hinit
  rw [State.inFront, Bool.and_eq_true, decide_eq_true_eq, decide_eq_true_eq] at h
  rw [State.inBlock_iff]
  omega

theorem State.dmaErq_eq_zero_iff (s : State) : s.dmaErq = 0b000#3 ↔ s.anyArmed = false := by
  have hbits : ∀ a b c : Bool, BitVec.ofBool c ++ BitVec.ofBool b ++ BitVec.ofBool a = 0b000#3 ↔ (a || b || c) = false := by
    decide
  exact hbits s.chA.erq s.chB.erq s.chC.erq

theorem State.lineLevel_of_low {s : State} (hoe : s.port.oe = 0xFF#8) (hdata : s.port.data = 0x00#8) (i : Fin 8) :
    s.lineLevel i = some false := by
  rw [State.lineLevel, hoe, hdata]
  revert i
  decide

/-- Settles O56: a set flag fixes the phase, so at most one channel's trigger is set; channel B's source is the front half's byte of
its bit-time; and the lines and the gap are conjuncts of the invariant, once INIT has run. -/
theorem theFrameInvariantOrdersChannelsAndLines : Obligations.TheFrameInvariantOrdersChannelsAndLines := by
  unfold Obligations.TheFrameInvariantOrdersChannelsAndLines
  rintro s ⟨-, -, -, hquiet, hgeom, hafterInit⟩
  refine ⟨fun x y hx hy => ?oneReady, fun herq => ?source, fun hinit hnone => ?low, fun hphase c hc => ?gap⟩
  case oneReady =>
    obtain ⟨hxerq, hxflag⟩ := (State.dmaReady_iff s x).mp hx
    obtain ⟨-, hyflag⟩ := (State.dmaReady_iff s y).mp hy
    obtain ⟨-, hprog, -, -, -, -, -, hlock⟩ := hafterInit (hquiet.initialized_of_erq hxerq)
    rw [Programmed.trig hprog] at hxflag hyflag
    have harmed := State.anyArmed_of_erq hxerq
    exact Chan.trigger_target_injective
      ((Lockstep.phase_of_flag hlock harmed hxflag).symm.trans (Lockstep.phase_of_flag hlock harmed hyflag))
  case source =>
    have hinit : s.initialized = true := Quiet.initialized_of_erq hquiet (x := .b) herq
    obtain ⟨-, -, -, ⟨hleft, hcount, -⟩, -, hsrc, -⟩ := hafterInit hinit
    rw [SourceOk, if_pos herq] at hsrc
    have hfront : s.inFront s.chB.src = true := hsrc ▸ Geometry.bitTimeAddr_inFront hgeom hinit (by omega)
    exact ⟨hfront, Geometry.inBlock_of_inFront hgeom hinit hfront⟩
  case low =>
    obtain ⟨hoe, -, -, -, -, -, -, hlow, -⟩ := hafterInit hinit
    exact State.lineLevel_of_low hoe (hlow ((State.dmaErq_eq_zero_iff s).mp hnone))
  case gap =>
    have hinit : s.initialized = true := Quiet.initialized_of_hostPhase hquiet (by rw [hphase]; decide)
    obtain ⟨-, -, -, -, -, -, ⟨-, -, -, -, -, hgap, -⟩, -⟩ := hafterInit hinit
    have hended := hgap (.inr (.inr hphase))
    rw [State.gapRunning_of_completedAt hc] at hended
    exact Nat.not_lt.mp (of_decide_eq_false hended)

end Sys2Proof.Machine
end

section
/-! SUPPORT. Proofs of the statements on the sequencer (spec 43_sequencer R170 to R178): SHOW's issue step, its six micro-steps, the
launch they make together, and the first edge of a launch that is not aligned. -/

namespace Sys2Proof.Machine

/-! ## SHOW's issue step -/

/-- Settles O19: HOST's position is asked before INIT is, so F_REENTRY comes first. -/
theorem showBeginsTheMicroSteps : Obligations.ShowBeginsTheMicroSteps := by
  unfold Obligations.ShowBeginsTheMicroSteps
  intro s hrun
  have hshow : exec .showOp s = .next (showEffect s) := settle_running _ hrun
  rw [hshow]
  refine ⟨fun hbusy => ?reentry, fun hready hinit => ?notInit, fun hready hinit => ?begins⟩
  case reentry => rw [showEffect, if_pos hbusy]; rfl
  case notInit => rw [showEffect, if_neg (not_not_intro hready), afterInit, hinit]; rfl
  case begins => rw [showEffect, if_neg (not_not_intro hready), afterInit, if_pos hinit]

/-! ## The micro-steps -/

/-- In a running block a micro-step whose turn it is, and whose wait has ended, ends as its body says. -/
theorem settle_microStep {s : State} {p : HostPhase} {ready : Bool} (t : State) (hrun : s.running = true)
    (hp : s.hostPhase = p) (hready : ready = true) : settle s (microStep s p ready t) = .next t := by
  rcases microStep_cases s p ready t with ⟨_, _, he⟩ | ⟨hheld, _⟩
  · rw [he, settle_running t hrun]
  · simp [hp, hready] at hheld

section
variable {s : State} (hrun : s.running = true)
include hrun

theorem exec_shWaitInFlight (hp : s.hostPhase = .shWaitInFlight) (hflight : s.inFlight = false) :
    exec .shWaitInFlight s = .next { s with hostPhase := .shSwap } :=
  settle_microStep _ hrun hp (by rw [hflight]; rfl)

theorem exec_shSwap (hp : s.hostPhase = .shSwap) : exec .shSwap s = .next (shSwapEffect s) :=
  settle_microStep _ hrun hp rfl

theorem exec_shWaitGap (hp : s.hostPhase = .shWaitGap) (hgap : s.gapRunning = false) :
    exec .shWaitGap s = .next { s with hostPhase := .shMask } :=
  settle_microStep _ hrun hp (by rw [hgap]; rfl)

theorem exec_shMask (hp : s.hostPhase = .shMask) :
    exec .shMask s = .next { s with imask := true, hostPhase := .shAlignStop } :=
  settle_microStep _ hrun hp rfl

theorem exec_shAlignStop (hp : s.hostPhase = .shAlignStop) (htmr : s.tmr.run = true)
    (halign : alignAdmits s.params.alignMode s.tmr.phase = true) :
    exec .shAlignStop s = .next { s with tmr := { s.tmr with run := false }, hostPhase := .shArm } :=
  settle_microStep _ hrun hp (by rw [htmr, halign]; rfl)

theorem exec_shArm (hp : s.hostPhase = .shArm) : exec .shArm s = .next (shArmEffect s) :=
  settle_microStep _ hrun hp rfl

end

theorem State.gapRunning_of_no_frame {s : State} (h : s.completedAt = none) : s.gapRunning = false := by
  simp only [State.gapRunning, h]

/-- TAIL is in AlignSet under either mode (43_sequencer R175). -/
theorem alignAdmits_tail (m : AlignMode) : alignAdmits m .tail = true := by cases m <;> rfl

/-- Settles O20: no frame completed, or the gap is over, so in each case the gap does not run. -/
theorem waitsPassWhenTheirHoldEnds : Obligations.WaitsPassWhenTheirHoldEnds := by
  unfold Obligations.WaitsPassWhenTheirHoldEnds
  intro s hrun
  refine ⟨exec_shWaitInFlight hrun, fun hp hnone => exec_shWaitGap hrun hp (State.gapRunning_of_no_frame hnone),
    fun t hp ht _ hover => exec_shWaitGap hrun hp ?_⟩
  rw [State.gapRunning_of_completedAt ht]
  exact decide_eq_false (Nat.not_lt.mpr hover)

/-- Settles O21: SH_SWAP has no wait, so at its turn it ends in `shSwapEffect`. -/
theorem shSwapRepointsChannelB : Obligations.ShSwapRepointsChannelB := by
  unfold Obligations.ShSwapRepointsChannelB
  exact fun s hrun hp => exec_shSwap hrun hp

/-- Settles O22: the two ways AlignSet admits the phase are ANY, which admits each, and TAIL, which each mode admits. -/
theorem maskAndStopEnterTheCriticalSection : Obligations.MaskAndStopEnterTheCriticalSection := by
  unfold Obligations.MaskAndStopEnterTheCriticalSection
  refine fun s hrun => ⟨exec_shMask hrun, fun hp htmr hset => exec_shAlignStop hrun hp htmr ?_⟩
  rcases hset with hany | htail
  · rw [hany]; rfl
  · rw [htail, alignAdmits_tail]

/-- Settles O23: SH_ARM has no wait, so at its turn it ends in `shArmEffect`. -/
theorem shArmLaunchesTheFrame : Obligations.ShArmLaunchesTheFrame := by
  unfold Obligations.ShArmLaunchesTheFrame
  exact fun s hrun hp => exec_shArm hrun hp

/-! ## The seven steps together -/

theorem execAll_cons {s t : State} {i : Instr} {is : List Instr} {r : Host.Outcome State Fault Refusal}
    (hstep : exec i s = .next t) (hrest : execAll is t = r) : execAll (i :: is) s = r := by
  simp only [execAll, hstep, hrest]

/-- The state SHOW's seven steps leave when nothing holds or interleaves them: SH_SWAP's exchange, then SH_ARM's launch
(43_sequencer R177). -/
def State.afterShow (s : State) : State := shArmEffect (shSwapEffect s)

/-- The seven steps, from an idle block whose timer runs in a phase of AlignSet. -/
theorem execAll_show {s : State} (hrun : s.running = true) (hinit : s.initialized = true) (hready : s.hostPhase = .ready)
    (hflight : s.inFlight = false) (hgap : s.gapRunning = false) (htmr : s.tmr.run = true)
    (halign : alignAdmits s.params.alignMode s.tmr.phase = true) :
    execAll [.showOp, .shWaitInFlight, .shSwap, .shWaitGap, .shMask, .shAlignStop, .shArm] s = .next s.afterShow := by
  obtain ⟨_, _, hshow⟩ := showBeginsTheMicroSteps s hrun
  exact execAll_cons (hshow hready hinit) <| execAll_cons (exec_shWaitInFlight hrun rfl hflight) <|
    execAll_cons (exec_shSwap hrun rfl) <| execAll_cons (exec_shWaitGap hrun rfl hgap) <|
    execAll_cons (exec_shMask hrun rfl) <| execAll_cons (exec_shAlignStop hrun rfl htmr halign) <|
    execAll_cons (exec_shArm hrun rfl) rfl

theorem State.txState_eq_idle_iff (s : State) : s.txState = .idle ↔ s.inFlight = false ∧ s.gapRunning = false := by
  cases hflight : s.inFlight <;> cases hgap : s.gapRunning <;> simp [State.txState, hflight, hgap]

/-- With no frame in flight no channel is armed, so each has its full count and the lines are low (10_state R57; 44_completion
R196). -/
theorem FrameInv.full_and_low_of_not_inFlight {s : State} (hinv : FrameInv s) (hinit : s.initialized = true)
    (hflight : s.inFlight = false) :
    s.chA.citer = s.len ∧ s.chB.citer = s.len ∧ s.chC.citer = s.len ∧ s.port.data = 0x00#8 := by
  obtain ⟨-, -, -, -, -, hafterInit⟩ := hinv
  obtain ⟨-, -, ⟨-, -, ha⟩, ⟨-, -, hb⟩, ⟨-, -, hc⟩, -, ⟨-, hframe, -⟩, ⟨hlow, -⟩⟩ := hafterInit hinit
  have hidle : s.anyArmed = false := by
    cases harmed : s.anyArmed with
    | false => rfl
    | true => rw [hframe (.inl harmed)] at hflight; cases hflight
  have herq (x : Chan) : (s.ch x).erq = false := Bool.eq_false_iff.mpr fun h => by
    rw [State.anyArmed_of_erq h] at hidle; cases hidle
  exact ⟨ha (herq .a), hb (herq .b), hc (herq .c), hlow hidle⟩

/-- The timer is stopped only between SH_ALIGN_STOP and SH_ARM (43_sequencer R175, R176). -/
theorem FrameInv.timer_runs {s : State} (hinv : FrameInv s) (hinit : s.initialized = true) (hp : s.hostPhase ≠ .shArm) :
    s.tmr.run = true := by
  obtain ⟨-, -, -, -, -, hafterInit⟩ := hinv
  obtain ⟨-, -, -, -, -, -, ⟨-, -, -, -, -, -, -, hstopped, -⟩, -⟩ := hafterInit hinit
  exact Bool.of_not_eq_false fun h => hp (hstopped.mp h)

/-- Settles O25: the seven steps run because the block is idle and its timer runs in TAIL; the counts and the low lines are the
invariant's for a block with no frame in flight, and no step changes them. -/
theorem showLaunchesTheDrawHalf : Obligations.ShowLaunchesTheDrawHalf := by
  unfold Obligations.ShowLaunchesTheDrawHalf
  intro s hinv hrun hinit hready hidle htail
  obtain ⟨hflight, hgap⟩ := (State.txState_eq_idle_iff s).mp hidle
  have htmr : s.tmr.run = true := FrameInv.timer_runs hinv hinit (by rw [hready]; decide)
  obtain ⟨ha, hb, hc, hlow⟩ := FrameInv.full_and_low_of_not_inFlight hinv hinit hflight
  have hlaunched : Launched s.afterShow := ⟨hinit, rfl, rfl, htail, rfl, rfl, rfl, ha, hb, hc, rfl, rfl, rfl⟩
  exact ⟨s.afterShow, execAll_show hrun hinit hready hflight hgap htmr (by rw [htail, alignAdmits_tail]), hlaunched, rfl, rfl,
    rfl, rfl, hlow, rfl, rfl, rfl, rfl⟩

/-! ## A launch that is not aligned -/

/-- With no edge flag set no channel has a request waiting (40_waveform_and_lines R114). -/
theorem State.windowOK_of_no_flag {s : State} (h : s.ef = { rise := false, fall0 := false, fall1 := false }) :
    s.windowOK = true := by
  refine Bool.of_not_eq_false fun hclosed => ?_
  obtain ⟨x, hx⟩ := (State.windowOK_eq_false_iff s).mp hclosed
  obtain ⟨-, hflag⟩ := (State.dmaReady_iff s x).mp hx
  have hclear (e : Edge) : s.flag e = false := by cases e <;> simp only [State.flag, h]
  rw [hclear] at hflag
  cases hflag

/-- Settles O58: the edge passes the open window and sets fall1, which channel C serves first; its CLEAR finds the lines low. -/
theorem aMisalignedLaunchLosesItsFirstPulse : Obligations.AMisalignedLaunchLosesItsFirstPulse := by
  unfold Obligations.AMisalignedLaunchLosesItsFirstPulse
  intro s hrun htmr hphase hprog hlen ha hb hc hcountA hcountB hcountC hef hlow
  obtain ⟨-, -, hprogC⟩ := hprog
  obtain ⟨-, -, hfall1⟩ := edgesAdvanceThePhaseAndSetTheirFlag s hrun htmr
  obtain ⟨hedge, -⟩ := hfall1 hphase
  have hmore : 2 ≤ s.chC.citer := hcountC ▸ hlen
  obtain ⟨hserve, -⟩ := dmaCLowersEveryLineAndCompletes
    { s with tmr := { s.tmr with phase := .tail }, ef := { s.ef with fall1 := true } } hrun hprogC hc rfl
    (Nat.le_of_succ_le hmore)
  refine ⟨_, execAll_cons (hedge (State.windowOK_of_no_flag hef)) (execAll_cons (hserve hmore) rfl), rfl, rfl, rfl,
    congrArg (· - 1) hcountC, hcountA, hcountB, ?armed⟩
  case armed => simp only [State.dmaErq, ha, hb, hc]; rfl

end Sys2Proof.Machine
end

section
/-! SUPPORT. Everything an operation can do, each with the guard it stands behind, and that the trace is only appended to. A
statement over all operations goes by the cases of `Effect`. -/

namespace Sys2Proof.Machine

/-- Operation `i`, executed in `s`, can leave `t`: everything a step can do, each with the guard it stands behind. -/
inductive Effect (s : State) : Instr → State → Prop where
  | held (i : Instr) : Effect s i s
  | faulted (i : Instr) (code : FaultCode) (info : FaultInfo) : Effect s i (raise s i code info)
  | refused : Effect s (.time 0) (refuse s)
  | stored {i : Instr} {m : Memory} (hst : Stores s i m) : Effect s i { s with mem := m }
  | observed (i : Instr) (e : Event) (hport : e.isPort = false) (hirq : e.isIrq = false) : Effect s i (s.emit e)
  | configured (n : Nat) (base : Addr) (size rate : Nat) (r : Rate) (hinit : s.initialized = false) :
    Effect s (.init n base size rate) (initEffect s n base size r)
  | swapped (hinit : s.initialized = true) : Effect s .swap (swapEffect s)
  | showBegun (hready : s.hostPhase = .ready) (hinit : s.initialized = true) :
    Effect s .showOp { s with hostPhase := .shWaitInFlight }
  | flightAwaited (hp : s.hostPhase = .shWaitInFlight) (hflight : s.inFlight = false) :
    Effect s .shWaitInFlight { s with hostPhase := .shSwap }
  | halvesSwapped (hp : s.hostPhase = .shSwap) : Effect s .shSwap (shSwapEffect s)
  | gapAwaited (hp : s.hostPhase = .shWaitGap) (hgap : s.gapRunning = false) :
    Effect s .shWaitGap { s with hostPhase := .shMask }
  | masked (hp : s.hostPhase = .shMask) : Effect s .shMask { s with imask := true, hostPhase := .shAlignStop }
  | timerStopped (hp : s.hostPhase = .shAlignStop) (htmr : s.tmr.run = true)
    (halign : alignAdmits s.params.alignMode s.tmr.phase = true) :
    Effect s .shAlignStop { s with tmr := { s.tmr with run := false }, hostPhase := .shArm }
  | launched (hp : s.hostPhase = .shArm) : Effect s .shArm (shArmEffect s)
  | edgeTaken (e : Edge) (htmr : s.tmr.run = true) (hphase : s.tmr.phase = e.source) (hopen : s.windowOK = true) :
    Effect s (edgeAfter e.source) (State.putFlag { s with tmr := { s.tmr with phase := e.target } } e true)
  | served (x : Chan) (v : Byte) (hready : s.dmaReady x = true) (hbyte : s.sourceByte x = some v) :
    Effect s x.op (s.served x v)
  | handled (hready : s.irqReady = true) : Effect s .irqCompletion (handlerBody s.irqEnter)
  | advanced (d : Nat) : Effect s (.time d) { s with now := s.now + d }
  | dataWritten (v : Byte) (hinit : s.initialized = true) : Effect s (.portData v) (s.portWrite .dmaB .data v)
  | linesSet (v : Byte) (hinit : s.initialized = true) : Effect s (.portSet v) (s.portWrite .dmaA .set v)
  | linesCleared (v : Byte) (hinit : s.initialized = true) : Effect s (.portClear v) (s.portWrite .dmaC .clear v)

namespace Effect

variable {s t u : State} {i : Instr}

theorem ite {c : Prop} [Decidable c] (ht : c → Effect s i t) (hu : ¬c → Effect s i u) : Effect s i (if c then t else u) := by
  split
  · exact ht ‹c›
  · exact hu ‹¬c›

theorem hostStep (h : Effect s i t) : Effect s i (hostStep s t) := .ite (fun _ => h) fun _ => .held i

theorem afterInit (h : s.initialized = true → Effect s i t) : Effect s i (afterInit s i t) := .ite h fun _ => .faulted ..

theorem onceInit (h : s.initialized = true → Effect s i t) : Effect s i (onceInit s t) := .ite h fun _ => .held i

theorem microStep {p : HostPhase} {ready : Bool} (h : s.hostPhase = p → ready = true → Effect s i t) :
    Effect s i (microStep s p ready t) := by
  rcases microStep_cases s p ready t with ⟨hp, hready, he⟩ | ⟨-, he⟩
  · rw [he]; exact h hp hready
  · rw [he]; exact .held i

theorem memWrite {a : Addr} {v : Byte} (hst : Stores s i (Memory.write s.mem a.toNat v)) : Effect s i (s.memWrite i a v) :=
  .ite (fun _ => .stored hst) fun _ => .faulted ..

theorem readEffect (s : State) (i : Instr) (a : Addr) : Effect s i (readEffect s i a) := by
  rcases readEffect_cases s i a with ⟨-, he⟩ | ⟨-, he⟩
  · exact he ▸ .observed i _ rfl rfl
  · exact he ▸ .faulted ..

theorem initChecked (s : State) (n : Nat) (base : Addr) (size rate : Nat) :
    Effect s (.init n base size rate) (initChecked s n base size rate) := by
  rcases initChecked_cases s n base size rate with ⟨c, f, he⟩ | ⟨r, hinit, -, -, -, -, -, he⟩
  · exact he ▸ .faulted ..
  · exact he ▸ .configured n base size rate r hinit

theorem showEffect (s : State) : Effect s .showOp (showEffect s) :=
  .ite (fun _ => .faulted ..) fun hready => .afterInit fun hinit => .showBegun (Decidable.not_not.mp hready) hinit

theorem edgeEffect (s : State) (e : Edge) : Effect s (edgeAfter e.source) (edgeEffect s (edgeAfter e.source) e) := by
  rcases edgeEffect_cases s (edgeAfter e.source) e with ⟨htmr, hphase, hopen, he⟩ | ⟨-, -, -, -, he⟩ | ⟨-, he⟩
  · rw [he]; exact .edgeTaken e htmr hphase hopen
  · rw [he]; exact .faulted ..
  · rw [he]; exact .held _

theorem dmaEffect (s : State) (x : Chan) : Effect s x.op (dmaEffect s x.op x) := by
  rcases dmaEffect_cases s x.op x with ⟨hready, he⟩ | ⟨-, he⟩
  · cases hbyte : s.sourceByte x with
    | none => rw [he, xfer, hbyte]; exact .faulted ..
    | some v => rw [he, xfer_eq_served x.op hbyte]; exact .served x v hready hbyte
  · rw [he]; exact .held _

theorem of_settle (h : settle s u = .next t) (hu : Effect s i u) : Effect s i t := (settle_next_iff.mp h).2 ▸ hu

end Effect

/-- Everything an operation can do. -/
theorem exec_effect {s t : State} {i : Instr} (h : exec i s = .next t) : Effect s i t := by
  cases i with
  | init n base size rate => exact .of_settle h (.hostStep (.initChecked ..))
  | writeDraw off val =>
    exact .of_settle h (.hostStep (.afterInit fun hinit => .ite (fun _ => .faulted ..) fun hoff =>
      .memWrite (.writeDraw off val hinit (Nat.not_le.mp hoff))))
  | readDraw off => exact .of_settle h (.hostStep (.afterInit fun _ => .ite (fun _ => .faulted ..) fun _ => .readEffect ..))
  | memWrite addr val =>
    exact .of_settle h (.hostStep (.afterInit fun hinit => .ite (fun _ => .faulted ..) fun _ =>
      .ite (fun _ => .faulted ..) fun hfront => .memWrite (.memWrite addr val hinit (Bool.eq_false_iff.mpr hfront))))
  | memRead addr => exact .of_settle h (.hostStep (.afterInit fun _ => .readEffect ..))
  | showOp => exact .of_settle h (.showEffect s)
  | busy => exact .of_settle h (.hostStep (.afterInit fun _ => .observed _ _ rfl rfl))
  | swap => exact .of_settle h (.onceInit .swapped)
  | shWaitInFlight =>
    exact .of_settle h (.microStep fun hp hflight => .flightAwaited hp (by simpa using hflight))
  | shSwap => exact .of_settle h (.microStep fun hp _ => .halvesSwapped hp)
  | shWaitGap => exact .of_settle h (.microStep fun hp hgap => .gapAwaited hp (by simpa using hgap))
  | shMask => exact .of_settle h (.microStep fun hp _ => .masked hp)
  | shAlignStop =>
    refine .of_settle h (.microStep fun hp hready => ?_)
    obtain ⟨htmr, halign⟩ := Bool.and_eq_true_iff.mp hready
    exact .timerStopped hp htmr halign
  | shArm => exact .of_settle h (.microStep fun hp _ => .launched hp)
  | edgeRise => exact .of_settle h (.edgeEffect s .rise)
  | edgeFall0 => exact .of_settle h (.edgeEffect s .fall0)
  | edgeFall1 => exact .of_settle h (.edgeEffect s .fall1)
  | dmaA => exact .of_settle h (.dmaEffect s .a)
  | dmaB => exact .of_settle h (.dmaEffect s .b)
  | dmaC => exact .of_settle h (.dmaEffect s .c)
  | irqCompletion => exact .of_settle h (.ite .handled fun _ => .held _)
  | time d => exact .of_settle h (.ite (fun hd => hd ▸ .refused) fun _ => .advanced d)
  | portData v => exact .of_settle h (.onceInit (.dataWritten v))
  | portSet v => exact .of_settle h (.onceInit (.linesSet v))
  | portClear v => exact .of_settle h (.onceInit (.linesCleared v))

/-! ## The trace -/

/-- The trace is only appended to (10_state R54). -/
theorem Effect.trace_appended {s t : State} {i : Instr} (h : Effect s i t) : s.trace <+: t.trace := by
  cases h with
  | observed | handled | dataWritten | linesSet | linesCleared => exact ⟨_, rfl⟩
  | edgeTaken e => cases e <;> exact ⟨[], List.append_nil _⟩
  | served => rw [State.served_trace]; exact ⟨_, rfl⟩
  | _ => exact ⟨[], List.append_nil _⟩

theorem trace_of_fetch {s u : State} {r : Option Issued} (h : fetch s = (r, u)) : u.trace = s.trace :=
  calc u.trace = (fetch s).2.trace := by rw [h]
    _ = s.trace := by rw [fetch_frame]

theorem step_trace_appended {s t : State} (h : step s = .next t) : s.trace <+: t.trace := by
  rcases step_cases s with ⟨u, hf, he⟩ | ⟨o, u, i, hf, -, he⟩ | ⟨o, u, e, hf, -, he⟩ <;>
    rw [he] at h <;> rw [← trace_of_fetch hf]
  · obtain ⟨-, rfl⟩ := settle_next_iff.mp h
    exact ⟨[], List.append_nil _⟩
  · exact (exec_effect h).trace_appended
  · obtain ⟨-, rfl⟩ := settle_next_iff.mp h
    exact ⟨[], List.append_nil _⟩

end Sys2Proof.Machine
end

section
/-! SUPPORT. Proofs of the statements on the handler, BUSY and the transmission state (spec 44_completion R190 to R192;
60_exceptions R216, R217). -/

namespace Sys2Proof.Machine

/-! ## The handler and BUSY -/

/-- Settles O36: the three bits make the handler ready, and its entry, body and return together are the state written out. -/
theorem theHandlerEndsTheFrame : Obligations.TheHandlerEndsTheFrame := by
  unfold Obligations.TheHandlerEndsTheFrame
  intro s hrun hpend hen hmask
  have hready : s.irqReady = true := by rw [State.irqReady, hpend, hen, hmask]; rfl
  rw [exec, execIrqCompletion, if_pos hready, settle_running _ hrun]
  rfl

/-- BUSY at READY on an initialised block answers `State.busyNow`. -/
theorem exec_busy {s : State} (hrun : s.running = true) (hready : s.hostPhase = .ready) (hinit : s.initialized = true) :
    exec .busy s = .next (s.emit (.busy s.busyNow)) :=
  settle_hostStep_afterInit _ _ hrun hready hinit

theorem State.gapRunning_iff (s : State) :
    s.gapRunning = true ↔ ∃ c, s.completedAt = some c ∧ s.now - c < s.params.resetGap := by
  unfold State.gapRunning
  cases s.completedAt <;> simp

/-- Settles O37: at READY on an initialised block BUSY emits `State.busyNow`, which is the disjunction of the two conditions. -/
theorem busyReportsFlightOrGap : Obligations.BusyReportsFlightOrGap := by
  unfold Obligations.BusyReportsFlightOrGap
  intro s hrun hready
  refine ⟨settle_hostStep_notInit .busy _ hrun hready, fun hinit hbusy => ?busy, fun hinit hflight hover => ?idle⟩
  case busy =>
    have hnow : s.busyNow = true := by rwa [State.busyNow, Bool.or_eq_true, State.gapRunning_iff]
    rw [exec_busy hrun hready hinit, hnow]
    rfl
  case idle =>
    have hgap : s.gapRunning = false := Bool.eq_false_iff.mpr fun h => by
      obtain ⟨c, hc, hlt⟩ := (State.gapRunning_iff s).mp h
      exact absurd hlt (Nat.not_lt.mpr (hover c hc))
    have hnow : s.busyNow = false := by rw [State.busyNow, hflight, hgap]; rfl
    rw [exec_busy hrun hready hinit, hnow]
    rfl

/-! ## The transmission state -/

/-- A frame in flight makes the block InFlight, whatever the gap does (10_state R34). -/
theorem State.txState_of_inFlight {s : State} (h : s.inFlight = true) : s.txState = .inFlight := if_pos h

theorem State.txState_of_gap {s : State} (hflight : s.inFlight = false) (hgap : s.gapRunning = true) : s.txState = .resetGap := by
  rw [State.txState, hflight, hgap]; rfl

/-- The interrupt is not enabled before INIT (70_reset_and_hazards R240). -/
theorem Quiet.initialized_of_irqReady {s : State} (h : Quiet s) (hready : s.irqReady = true) : s.initialized = true := by
  refine Bool.of_not_eq_false fun hnot => ?_
  obtain ⟨-, -, -, -, -, -, -, hen, -⟩ := h hnot
  rw [(State.irqReady_eq_false_iff s).mpr (.inr (.inl hen))] at hready
  cases hready

section
variable {s : State} (hinv : FrameInv s)
include hinv

/-- Before INIT no frame is in flight and none has completed (70_reset_and_hazards R240). -/
theorem FrameInv.txState_of_not_initialized (hinit : s.initialized = false) : s.txState = .idle := by
  obtain ⟨-, -, -, hquiet, -⟩ := hinv
  obtain ⟨-, hflight, hnone, -⟩ := hquiet hinit
  exact (State.txState_eq_idle_iff s).mpr ⟨hflight, State.gapRunning_of_no_frame hnone⟩

/-- SH_ARM stands only in an idle block (43_sequencer R171, R173). -/
theorem FrameInv.txState_of_shArm (hp : s.hostPhase = .shArm) : s.txState = .idle := by
  obtain ⟨-, -, -, hquiet, -, hafterInit⟩ := hinv
  have hinit : s.initialized = true := Quiet.initialized_of_hostPhase hquiet (by rw [hp]; decide)
  obtain ⟨-, -, -, -, -, -, ⟨-, -, -, -, hwaited, hgap, -⟩, -⟩ := hafterInit hinit
  exact (State.txState_eq_idle_iff s).mpr ⟨hwaited (.inr (.inr (.inr (.inr hp)))), hgap (.inr (.inr hp))⟩

/-- The handler runs only at the end of a frame (10_state R57 item 4). -/
theorem FrameInv.txState_of_irqReady (hready : s.irqReady = true) : s.txState = .inFlight := by
  obtain ⟨-, -, -, hquiet, -, hafterInit⟩ := hinv
  obtain ⟨-, -, -, -, -, -, ⟨-, hframe, -⟩, -⟩ := hafterInit (Quiet.initialized_of_irqReady hquiet hready)
  refine State.txState_of_inFlight (hframe (.inr ?_))
  simp only [State.irqReady, Bool.and_eq_true] at hready
  obtain ⟨⟨hpend, -⟩, -⟩ := hready
  exact hpend

end

/-- The timestamp the handler leaves is the current time, so the reset gap runs from then on. -/
theorem txState_handlerBody {s : State} (hgap : 1 ≤ s.params.resetGap) : (handlerBody s.irqEnter).txState = .resetGap :=
  State.txState_of_gap rfl (by simpa [State.gapRunning] using Nat.lt_of_succ_le hgap)

/-- While nothing but time changes, the transmission state stays or a reset gap ends: a gap that is over does not run again. -/
theorem State.txState_later {s t : State} (hparams : t.params = s.params) (hflight : t.inFlight = s.inFlight)
    (hdone : t.completedAt = s.completedAt) (hnow : s.now ≤ t.now) :
    t.txState = s.txState ∨ (s.txState = .resetGap ∧ t.txState = .idle) := by
  have hearlier : t.gapRunning = true → s.gapRunning = true := by
    simp only [State.gapRunning_iff, hparams, hdone]
    exact fun ⟨c, hc, hlt⟩ => ⟨c, hc, by omega⟩
  rw [State.txState, State.txState, hflight]
  cases s.inFlight with
  | true => exact .inl rfl
  | false =>
    cases hgap : t.gapRunning with
    | true => rw [hearlier hgap]; exact .inl rfl
    | false =>
      cases s.gapRunning with
      | true => exact .inr ⟨rfl, rfl⟩
      | false => exact .inl rfl

/-- Settles O39: of all that an operation can do, only SH_ARM, the handler and INIT write InFlight, only the handler and INIT the
timestamp, and only TIME the time; the invariant gives the state before each. -/
theorem onlyThreeTransmissionTransitions : Obligations.OnlyThreeTransmissionTransitions := by
  unfold Obligations.OnlyThreeTransmissionTransitions
  intro s t i hinv hgap _ h
  cases exec_effect h with
  | launched hp => exact .inr (.inl ⟨hinv.txState_of_shArm hp, rfl, rfl⟩)
  | handled hready => exact .inr (.inr (.inl ⟨hinv.txState_of_irqReady hready, txState_handlerBody hgap, rfl⟩))
  | advanced d =>
    rcases State.txState_later (s := s) (t := { s with now := s.now + d }) rfl rfl rfl (Nat.le_add_right ..) with
      hsame | ⟨hbefore, hafter⟩
    · exact .inl hsame
    · exact .inr (.inr (.inr ⟨hbefore, hafter, d, rfl⟩))
  | configured _ _ _ _ _ hinit => exact .inl (hinv.txState_of_not_initialized hinit).symm
  | edgeTaken e => exact .inl (by cases e <;> rfl)
  | served x v => exact .inl (by rw [State.served_frame]; rfl)
  | _ => exact .inl rfl

end Sys2Proof.Machine
end

section
/-! SUPPORT. Proof of the statement on the waveform of a frame (spec 44_completion R194): the transfer that is due in each state of
the pipeline (42_transmit_pipeline R159), that edges and transfers keep the pipeline's part of the frame invariant, and that each
transfer sends the frame's next event. -/

namespace Sys2Proof.Machine

/-! ## Transfers left -/

theorem Channel.left_of_armed {c : Channel} (h : c.erq = true) : c.left = c.citer := if_pos h

theorem Channel.left_of_disarmed {c : Channel} (h : c.erq = false) : c.left = 0 := by rw [Channel.left, h]; rfl

theorem CountOk.left_pos_iff {s : State} {c : Channel} (h : CountOk s c) : 0 < c.left ↔ c.erq = true := by
  obtain ⟨hleft, -, -⟩ := h
  cases herq : c.erq with
  | true => simp only [Channel.left_of_armed herq, iff_true]; omega
  | false => simp [Channel.left_of_disarmed herq]

theorem CountOk.left_le {s : State} {c : Channel} (h : CountOk s c) : c.left ≤ s.len := by
  obtain ⟨-, hle, -⟩ := h
  unfold Channel.left
  split <;> omega

theorem State.anyArmed_iff (s : State) : s.anyArmed = true ↔ ∃ x : Chan, (s.ch x).erq = true := by
  refine ⟨fun h => ?_, fun ⟨x, hx⟩ => State.anyArmed_of_erq hx⟩
  simp only [State.anyArmed, Bool.or_eq_true, or_assoc] at h
  rcases h with ha | hb | hc
  · exact ⟨.a, ha⟩
  · exact ⟨.b, hb⟩
  · exact ⟨.c, hc⟩

theorem State.left_of_idle {s : State} (h : s.anyArmed = false) (x : Chan) : (s.ch x).left = 0 :=
  Channel.left_of_disarmed (Bool.eq_false_iff.mpr fun hx => by rw [State.anyArmed_of_erq hx] at h; cases h)

/-! ## The transfer that is due -/

/-- The channel that transfers after `x`: the three take turns in each bit-time (42_transmit_pipeline R159). -/
def Chan.next : Chan → Chan
  | .a => .b
  | .b => .c
  | .c => .a

/-- Channel `x`'s transfer is the next of the frame: the transfers left and the lines are as the transfers before it leave them. -/
def Due (s : State) : Chan → Prop
  | .a => s.chA.left = s.chC.left ∧ s.chB.left = s.chC.left ∧ s.port.data = 0x00#8
  | .b => s.chA.left + 1 = s.chC.left ∧ s.chB.left = s.chC.left ∧ s.port.data = 0xFF#8
  | .c => s.chA.left + 1 = s.chC.left ∧ s.chB.left + 1 = s.chC.left ∧ s.port.data = s.lastSent

/-- `Lockstep`, asked once for the three channels. -/
theorem lockstep_iff (s : State) :
    Lockstep s ↔ (s.anyArmed = false → s.port.data = 0x00#8) ∧
      (s.anyArmed = true → ∀ x : Chan, s.tmr.phase = x.trigger.target →
        (∀ e, e ≠ x.trigger → s.flag e = false) ∧
        (s.flag x.trigger = true → Due s x) ∧ (s.flag x.trigger = false → Due s x.next)) := by
  constructor
  · rintro ⟨hlow, hhiBoth, hhiOne, htail⟩
    refine ⟨hlow, fun harmed x hphase => ?_⟩
    cases x with
    | a =>
      obtain ⟨hfall0, hfall1, hdue⟩ := hhiBoth harmed hphase
      exact ⟨fun | .rise, he => absurd rfl he | .fall0, _ => hfall0 | .fall1, _ => hfall1, hdue⟩
    | b =>
      obtain ⟨hrise, hfall1, hdue⟩ := hhiOne harmed hphase
      exact ⟨fun | .rise, _ => hrise | .fall0, he => absurd rfl he | .fall1, _ => hfall1, hdue⟩
    | c =>
      obtain ⟨hrise, hfall0, hdue⟩ := htail harmed hphase
      exact ⟨fun | .rise, _ => hrise | .fall0, _ => hfall0 | .fall1, he => absurd rfl he, hdue⟩
  · rintro ⟨hlow, hstep⟩
    refine ⟨hlow, fun harmed hphase => ?_, fun harmed hphase => ?_, fun harmed hphase => ?_⟩
    · obtain ⟨hother, hdue⟩ := hstep harmed .a hphase
      exact ⟨hother .fall0 (by decide), hother .fall1 (by decide), hdue⟩
    · obtain ⟨hother, hdue⟩ := hstep harmed .b hphase
      exact ⟨hother .rise (by decide), hother .fall1 (by decide), hdue⟩
    · obtain ⟨hother, hdue⟩ := hstep harmed .c hphase
      exact ⟨hother .rise (by decide), hother .fall0 (by decide), hdue⟩

theorem Due.congr {s t : State} {x : Chan} (h : Due s x) (hleft : ∀ y, (t.ch y).left = (s.ch y).left)
    (hdata : t.port.data = s.port.data) (hlast : t.lastSent = s.lastSent) : Due t x := by
  have ha : t.chA.left = s.chA.left := hleft .a
  have hb : t.chB.left = s.chB.left := hleft .b
  have hc : t.chC.left = s.chC.left := hleft .c
  cases x <;> simpa only [Due, ha, hb, hc, hdata, hlast] using h

/-- With no channel armed the frame is over, so a due transfer is the next frame's first, and finds the lines low. -/
theorem Due.low_of_idle {s : State} {x : Chan} (h : Due s x) (hidle : s.anyArmed = false) : s.port.data = 0x00#8 := by
  have ha : s.chA.left = 0 := State.left_of_idle hidle .a
  have hc : s.chC.left = 0 := State.left_of_idle hidle .c
  cases x with
  | a =>
    obtain ⟨-, -, hlow⟩ := h
    exact hlow
  | b => obtain ⟨hac, -⟩ := h; omega
  | c => obtain ⟨hac, -⟩ := h; omega

/-- While a channel is armed, the channel whose transfer is due is. -/
theorem Due.erq {s : State} {x : Chan} (h : Due s x) (hcount : ∀ y, CountOk s (s.ch y)) (harmed : s.anyArmed = true) :
    (s.ch x).erq = true := by
  obtain ⟨y, hy⟩ := (State.anyArmed_iff s).mp harmed
  have hpos : 0 < (s.ch y).left := (hcount y).left_pos_iff.mpr hy
  refine (hcount x).left_pos_iff.mp ?_
  cases x <;> obtain ⟨hac, hbc, -⟩ := h <;> cases y <;> simp only [State.ch] at hpos ⊢ <;> omega

/-- In the phase the trigger of `x` enters, with no other flag set, `Lockstep` asks which transfer is due. -/
theorem Lockstep.of_due {s : State} {x : Chan} (hphase : s.tmr.phase = x.trigger.target)
    (hother : ∀ e, e ≠ x.trigger → s.flag e = false) (hdue : Due s (if s.flag x.trigger then x else x.next)) :
    Lockstep s := by
  refine (lockstep_iff s).mpr ⟨hdue.low_of_idle, fun _ y hy => ?_⟩
  obtain rfl : x = y := Chan.trigger_target_injective (hphase.symm.trans hy)
  refine ⟨hother, fun hset => ?_, fun hclear => ?_⟩
  · simpa only [hset, if_true] using hdue
  · simpa only [hclear, Bool.false_eq_true, if_false] using hdue

/-! ## The pipeline's part of the frame invariant -/

/-- What the frame invariant says of the descriptors and the lines. -/
abbrev Pipeline (s : State) : Prop := Programmed s ∧ (∀ x, CountOk s (s.ch x)) ∧ SourceOk s ∧ Lockstep s

theorem programmed_iff (s : State) : Programmed s ↔ ∀ x : Chan, (s.ch x).programmed (descriptor x s.len s.front) := by
  refine ⟨fun ⟨ha, hb, hc⟩ x => ?_, fun h => ⟨h .a, h .b, h .c⟩⟩
  cases x with
  | a => exact ha
  | b => exact hb
  | c => exact hc

theorem FrameInv.pipeline {s : State} (h : FrameInv s) (hinit : s.initialized = true) : Pipeline s := by
  obtain ⟨-, -, -, -, -, hafterInit⟩ := h
  obtain ⟨-, hprog, ha, hb, hc, hsrc, -, hlock⟩ := hafterInit hinit
  refine ⟨hprog, fun x => ?_, hsrc, hlock⟩
  cases x with
  | a => exact ha
  | b => exact hb
  | c => exact hc

@[simp] theorem descriptor_biter (x : Chan) (len : Nat) (src : Addr) : (descriptor x len src).biter = len := by cases x <;> rfl
@[simp] theorem descriptor_dreq (x : Chan) (len : Nat) (src : Addr) : (descriptor x len src).dreq = true := by cases x <;> rfl

/-- A request waiting for channel `x` is served next: the other flags are clear. -/
theorem Pipeline.due {s : State} {x : Chan} (h : Pipeline s) (hready : s.dmaReady x = true) :
    s.tmr.phase = x.trigger.target ∧ (∀ e, e ≠ x.trigger → s.flag e = false) ∧ Due s x := by
  obtain ⟨hprog, -, -, hlock⟩ := h
  obtain ⟨herq, hflag⟩ := (State.dmaReady_iff s x).mp hready
  rw [Programmed.trig hprog] at hflag
  have harmed := State.anyArmed_of_erq herq
  have hphase : s.tmr.phase = x.trigger.target := Lockstep.phase_of_flag hlock harmed hflag
  obtain ⟨-, hstep⟩ := (lockstep_iff s).mp hlock
  obtain ⟨hother, hdue, -⟩ := hstep harmed x hphase
  exact ⟨hphase, hother, hdue hflag⟩

/-! ### An edge -/

/-- The edge that leaves the phase of `x` is the next channel's trigger (40_waveform_and_lines R110). -/
theorem Edge.exists_next_trigger (e : Edge) : ∃ x : Chan, e = x.next.trigger ∧ e.source = x.trigger.target := by
  cases e with
  | rise => exact ⟨.c, rfl, rfl⟩
  | fall0 => exact ⟨.a, rfl, rfl⟩
  | fall1 => exact ⟨.b, rfl, rfl⟩

/-- The state edge `e` leaves (40_waveform_and_lines R115 to R117). -/
abbrev State.afterEdge (s : State) (e : Edge) : State := State.putFlag { s with tmr := { s.tmr with phase := e.target } } e true

theorem State.flag_afterEdge (s : State) (e f : Edge) : (s.afterEdge e).flag f = if f = e then true else s.flag f := by
  rw [State.afterEdge, State.flag_putFlag]
  cases f <;> rfl

/-- An edge in the open window finds the last request served, and makes the next. -/
theorem Lockstep.afterEdge {s : State} {e : Edge} (h : Pipeline s) (hphase : s.tmr.phase = e.source) (hopen : s.windowOK = true) :
    Lockstep (s.afterEdge e) := by
  obtain ⟨hprog, hcount, -, hlock⟩ := h
  obtain ⟨hlow, hstep⟩ := (lockstep_iff s).mp hlock
  have hsame : (s.afterEdge e).anyArmed = s.anyArmed := by simp [State.anyArmed]
  cases harmed : s.anyArmed with
  | false =>
    refine (lockstep_iff _).mpr ⟨fun _ => ?_, fun h => ?_⟩
    · simpa using hlow harmed
    · rw [hsame, harmed] at h; cases h
  | true =>
    obtain ⟨x, rfl, hsource⟩ := Edge.exists_next_trigger e
    obtain ⟨hother, hpending, hserved⟩ := hstep harmed x (hphase.trans hsource)
    have hclear : s.flag x.trigger = false := Bool.eq_false_iff.mpr fun hset => by
      have hready : s.dmaReady x = true :=
        (State.dmaReady_iff s x).mpr ⟨(hpending hset).erq hcount harmed, by rwa [Programmed.trig hprog]⟩
      rw [(State.windowOK_eq_false_iff s).mpr ⟨x, hready⟩] at hopen
      cases hopen
    refine Lockstep.of_due (x := x.next) (by simp) (fun f hf => ?_) ?_
    · rw [State.flag_afterEdge, if_neg hf]
      by_cases hfx : f = x.trigger
      · rw [hfx, hclear]
      · exact hother f hfx
    · rw [State.flag_afterEdge, if_pos rfl, if_pos rfl]
      refine (hserved hclear).congr (fun y => ?_) (by simp) ?_
      · cases y <;> simp [State.ch]
      · simp [State.lastSent, State.len]

/-! ### A transfer -/

section
variable {c d : Channel} {s : State}

theorem Channel.programmed.afterTransfer (h : c.programmed d) : c.afterTransfer.programmed d := by
  unfold Channel.afterTransfer
  split <;> exact h

/-- A transfer leaves one fewer, whether or not it completes the frame. -/
theorem Channel.left_afterTransfer (herq : c.erq = true) (hdreq : c.dreq = true) (hone : 1 ≤ c.citer) :
    c.afterTransfer.left + 1 = c.left := by
  rw [Channel.left_of_armed herq]
  by_cases hlast : c.citer = 1
  · simp [Channel.afterTransfer_of_last hlast herq, Channel.left, hdreq, hlast]
  · rw [Channel.afterTransfer_of_more (by omega), Channel.left, if_pos herq]
    exact Nat.sub_add_cancel hone

theorem CountOk.afterTransfer (h : CountOk s c) (herq : c.erq = true) (hbiter : c.biter = s.len) :
    CountOk s c.afterTransfer := by
  obtain ⟨hone, hle, -⟩ := h
  by_cases hlast : c.citer = 1
  · have hlen : 1 ≤ s.len := by omega
    rw [Channel.afterTransfer_of_last hlast herq]
    exact ⟨hbiter ▸ hlen, Nat.le_of_eq hbiter, fun _ => hbiter⟩
  · have hmore : 2 ≤ c.citer := by omega
    rw [Channel.afterTransfer_of_more hmore]
    exact ⟨Nat.le_sub_one_of_lt hmore, Nat.le_trans (Nat.sub_le ..) hle, fun hdis => absurd (herq.symm.trans hdis) (by decide)⟩

end

section
variable (s : State) (x : Chan) (v : Byte)

@[simp] theorem State.served_front : (s.served x v).front = s.front := by simp [State.served]
@[simp] theorem State.served_mem : (s.served x v).mem = s.mem := by simp [State.served]
@[simp] theorem State.served_tmr : (s.served x v).tmr = s.tmr := by simp [State.served]
@[simp] theorem State.served_len : (s.served x v).len = s.len := by simp [State.served, State.len]

end

/-- The byte channel `x` moves: 0xFF, or, for channel B, the front half's next byte (42_transmit_pipeline R153 to R155, R160). -/
theorem Pipeline.sourceByte {s : State} {x : Chan} {v : Byte} (h : Pipeline s) (herq : (s.ch x).erq = true)
    (hbyte : s.sourceByte x = some v) :
    v = if x = .b then Memory.read s.mem (bitTimeAddr s.front (s.len - s.chB.left)).toNat else 0xFF#8 := by
  obtain ⟨⟨⟨hka, -⟩, ⟨hkb, -⟩, ⟨hkc, -⟩⟩, -, hsrc, -⟩ := h
  cases x with
  | a => exact (Option.some.inj ((State.sourceByte_of_konst (x := .a) hka).symm.trans hbyte)).symm
  | b =>
    have hread : s.memRead s.chB.src = some v := by rw [State.sourceByte, State.ch, hkb] at hbyte; exact hbyte
    obtain ⟨-, rfl⟩ := State.memRead_eq_some.mp hread
    have herqB : s.chB.erq = true := herq
    rw [if_pos rfl, hsrc, if_pos herqB, Channel.left_of_armed herqB]
    rfl
  | c => exact (Option.some.inj ((State.sourceByte_of_konst (x := .c) hkc).symm.trans hbyte)).symm

section
variable {s : State} {x : Chan} {v : Byte} (h : Pipeline s) (hready : s.dmaReady x = true)
include h hready

/-- A served request leaves its own channel one transfer fewer, and the others as they were. -/
theorem Pipeline.left_served (y : Chan) : ((s.served x v).ch y).left + (if y = x then 1 else 0) = (s.ch y).left := by
  obtain ⟨hprog, hcount, -, -⟩ := h
  obtain ⟨herq, -⟩ := (State.dmaReady_iff s x).mp hready
  obtain ⟨-, -, -, -, -, hdreq, -⟩ := (programmed_iff s).mp hprog x
  obtain ⟨hone, -⟩ := hcount x
  rw [State.ch_served]
  split
  · next hy => rw [hy]; exact Channel.left_afterTransfer herq (by rw [hdreq, descriptor_dreq]) hone
  · rfl

theorem Pipeline.served_programmed : Programmed (s.served x v) := by
  obtain ⟨hprog, -⟩ := h
  refine (programmed_iff _).mpr fun y => ?_
  rw [State.ch_served, State.served_len, State.served_front]
  split
  · next hy => subst hy; exact ((programmed_iff s).mp hprog y).afterTransfer
  · exact (programmed_iff s).mp hprog y

theorem Pipeline.served_count (y : Chan) : CountOk (s.served x v) ((s.served x v).ch y) := by
  obtain ⟨hprog, hcount, -, -⟩ := h
  obtain ⟨herq, -⟩ := (State.dmaReady_iff s x).mp hready
  have hkept : CountOk s ((s.served x v).ch y) := by
    rw [State.ch_served]
    split
    · obtain ⟨-, -, -, -, hbiter, -⟩ := (programmed_iff s).mp hprog x
      exact (hcount x).afterTransfer herq (by rw [hbiter, descriptor_biter])
    · exact hcount y
  rwa [CountOk, State.served_len]

/-- Channel B's source moves on by one byte, or back to the first at the end of the frame (30_encoding R96). -/
theorem Pipeline.served_source : SourceOk (s.served x v) := by
  obtain ⟨⟨-, ⟨-, hsoff, hslast, -, -, hdreq, -⟩, -⟩, hcount, hsrc, -⟩ := h
  obtain ⟨herq, -⟩ := (State.dmaReady_iff s x).mp hready
  have hcountB : CountOk s s.chB := hcount .b
  obtain ⟨hone, hle, -⟩ := hcountB
  by_cases hx : x = .b
  · subst hx
    have herqB : s.chB.erq = true := herq
    have hchB : (s.served .b v).chB = s.chB.afterTransfer := State.ch_served s .b v .b
    rw [SourceOk, if_pos herqB] at hsrc
    rw [SourceOk, hchB, State.served_front, State.served_len]
    have hnext (k : Nat) : s.front + BitVec.ofNat 32 k + 1#32 = s.front + BitVec.ofNat 32 (k + 1) := by
      rw [BitVec.add_assoc, ← BitVec.ofNat_add]
    by_cases hlast : s.chB.citer = 1
    · rw [Channel.afterTransfer_of_last hlast herqB, hsoff, hslast, hdreq, hsrc, hlast]
      simp only [descriptor, hnext, Bool.not_true, Bool.false_eq_true, if_false, BitVec.add_zero]
      rw [Nat.sub_add_cancel (hlast ▸ hle), add_backOffset]
    · rw [Channel.afterTransfer_of_more (by omega), hsoff, hsrc]
      simp only [descriptor, hnext, herqB, if_true]
      congr 2
      omega
  · have hchB : (s.served x v).chB = s.chB := (State.ch_served s x v .b).trans (if_neg fun he => hx he.symm)
    rw [SourceOk, hchB, State.served_front, State.served_len]
    exact hsrc

/-- A served request makes the next channel's transfer due (42_transmit_pipeline R159). -/
theorem Pipeline.served_due (hbyte : s.sourceByte x = some v) : Due (s.served x v) x.next := by
  have ha := Pipeline.left_served (v := v) h hready .a
  have hb := Pipeline.left_served (v := v) h hready .b
  have hc := Pipeline.left_served (v := v) h hready .c
  obtain ⟨-, -, hdue⟩ := Pipeline.due h hready
  obtain ⟨herq, -⟩ := (State.dmaReady_iff s x).mp hready
  have hv := Pipeline.sourceByte h herq hbyte
  obtain ⟨⟨⟨-, -, -, hdstA, -⟩, ⟨-, -, -, hdstB, -⟩, ⟨-, -, -, hdstC, -⟩⟩, -⟩ := h
  simp only [State.ch] at ha hb hc
  cases x <;> obtain ⟨hac, hbc, -⟩ := hdue <;> simp only [reduceCtorEq, if_true, if_false] at ha hb hc
  case a =>
    refine ⟨by omega, by omega, ?_⟩
    rw [State.served_port, State.ch, hdstA, hv]
    exact portAfter_set_ones _
  case b =>
    refine ⟨by omega, by omega, ?_⟩
    have hsent : s.len - (s.served .b v).chB.left - 1 = s.len - s.chB.left := by omega
    rw [State.served_port, State.ch, hdstB, State.lastSent, State.served_mem, State.served_front, State.served_len, hsent]
    exact hv
  case c =>
    refine ⟨by omega, by omega, ?_⟩
    rw [State.served_port, State.ch, hdstC, hv]
    exact portAfter_clear_ones _

theorem Pipeline.served_lockstep (hbyte : s.sourceByte x = some v) : Lockstep (s.served x v) := by
  obtain ⟨hphase, hother, -⟩ := Pipeline.due h hready
  have hflag (e : Edge) : (s.served x v).flag e = if e = x.trigger then false else s.flag e := by
    obtain ⟨hprog, -⟩ := h
    rw [State.flag_served, Programmed.trig hprog]
  refine Lockstep.of_due (x := x) (by rw [State.served_tmr]; exact hphase) (fun e he => ?_) ?_
  · rw [hflag, if_neg he]; exact hother e he
  · rw [hflag, if_pos rfl, if_neg Bool.false_ne_true]
    exact Pipeline.served_due h hready hbyte

/-- A served request keeps the pipeline's part of the invariant. -/
theorem Pipeline.served (hbyte : s.sourceByte x = some v) : Pipeline (s.served x v) :=
  ⟨Pipeline.served_programmed h hready, Pipeline.served_count h hready, Pipeline.served_source h hready,
    Pipeline.served_lockstep h hready hbyte⟩

/-- The interrupt becomes pending at channel C's last transfer, the last of the frame (42_transmit_pipeline R158). -/
theorem Pipeline.served_pending (hbyte : s.sourceByte x = some v) (hidle : s.irq.pend = false)
    (hpend : (s.served x v).irq.pend = true) : (s.served x v).anyArmed = false := by
  have hdue := Pipeline.served_due h hready hbyte
  have hleft := Pipeline.left_served (v := v) h hready x
  have hcount := Pipeline.served_count (v := v) h hready
  obtain ⟨herq, -⟩ := (State.dmaReady_iff s x).mp hready
  rw [if_pos rfl, Channel.left_of_armed herq] at hleft
  simp only [State.served_irq, hidle, Bool.false_or, Bool.and_eq_true, decide_eq_true_eq] at hpend
  obtain ⟨hintmaj, hlast⟩ := hpend
  obtain ⟨⟨⟨-, -, -, -, -, -, ha, -⟩, ⟨-, -, -, -, -, -, hb, -⟩, -⟩, -⟩ := h
  cases x with
  | a => rw [State.ch, ha] at hintmaj; cases hintmaj
  | b => rw [State.ch, hb] at hintmaj; cases hintmaj
  | c =>
    obtain ⟨hac, hbc, -⟩ := hdue
    refine Bool.eq_false_iff.mpr fun harmed => ?_
    obtain ⟨y, hy⟩ := (State.anyArmed_iff _).mp harmed
    have hpos := (hcount y).left_pos_iff.mpr hy
    cases y <;> simp only [State.ch] at hpos hleft hlast <;> omega

end

/-! ## The frame's events -/

/-- Event `3 k + j` of a frame is event `j` of the bit-time of byte `k`. -/
theorem frameEvents_getElem? {ms : List Byte} {k : Nat} {m : Byte} (hk : ms[k]? = some m) {j : Nat} (hj : j < 3) :
    (frameEvents ms)[3 * k + j]? = (bitTimeEvents m)[j]? := by
  induction ms generalizing k with
  | nil => simp at hk
  | cons b ms ih =>
    rw [frameEvents, List.flatMap_cons]
    cases k with
    | zero =>
      obtain rfl : b = m := by simpa using hk
      rw [Nat.mul_zero, Nat.zero_add]
      exact List.getElem?_append_left hj
    | succ k =>
      rw [List.getElem?_append_right (by simp [bitTimeEvents]; omega)]
      have hpos : 3 * (k + 1) + j - (bitTimeEvents b).length = 3 * k + j := by simp [bitTimeEvents]; omega
      rw [hpos]
      exact ih (by simpa using hk)

theorem length_frameEvents (ms : List Byte) : (frameEvents ms).length = 3 * ms.length := by
  induction ms with
  | nil => rfl
  | cons b ms ih =>
    have hcons : frameEvents (b :: ms) = bitTimeEvents b ++ frameEvents ms := List.flatMap_cons
    have hthree : (bitTimeEvents b).length = 3 := rfl
    rw [hcons, List.length_append, hthree, ih, List.length_cons]
    omega

theorem State.frontBytes_getElem? {s : State} {k : Nat} (hk : k < s.len) :
    s.frontBytes[k]? = some (Memory.read s.mem (bitTimeAddr s.front k).toNat) := by
  simp [State.frontBytes, hk]

/-- How many transfers of a bit-time come before channel `x`'s. -/
def Chan.before : Chan → Nat
  | .a => 0
  | .b => 1
  | .c => 2

theorem Chan.before_lt (x : Chan) : x.before < 3 := by cases x <;> decide

/-- What has been sent while `x` is due: every earlier bit-time's three events, and this one's before `x`. -/
theorem Due.sentEvents {s : State} {x : Chan} (h : Due s x) (hle : s.chC.left ≤ s.len) :
    s.sentEvents = 3 * (s.len - s.chC.left) + x.before := by
  cases x <;> obtain ⟨hac, hbc, -⟩ := h <;> simp only [State.sentEvents, Chan.before] <;> omega

section
variable {s : State} {x : Chan} {v : Byte} (h : Pipeline s) (hready : s.dmaReady x = true)
include h hready

/-- While some channel has a request, channel C has a transfer left. -/
theorem Pipeline.left_c_pos : 0 < s.chC.left := by
  have hleft := Pipeline.left_served (v := 0#8) h hready x
  obtain ⟨-, -, hdue⟩ := Pipeline.due h hready
  rw [if_pos rfl] at hleft
  cases x <;> obtain ⟨hac, hbc, -⟩ := hdue <;> simp only [State.ch] at hleft <;> omega

/-- The transfer of a request that is served is the frame's next event. -/
theorem Pipeline.next_event (hbyte : s.sourceByte x = some v) :
    (frameEvents s.frontBytes)[s.sentEvents]? =
      some (.port x.agent (s.ch x).dst v (portAfter s.port.data (s.ch x).dst v)) := by
  obtain ⟨-, -, hdue⟩ := Pipeline.due h hready
  have hpos := Pipeline.left_c_pos h hready
  obtain ⟨herq, -⟩ := (State.dmaReady_iff s x).mp hready
  have hv := Pipeline.sourceByte h herq hbyte
  obtain ⟨⟨⟨-, -, -, hdstA, -⟩, ⟨-, -, -, hdstB, -⟩, ⟨-, -, -, hdstC, -⟩⟩, hcount, -⟩ := h
  have hle : s.chC.left ≤ s.len := (hcount .c).left_le
  rw [hdue.sentEvents hle,
    frameEvents_getElem? (State.frontBytes_getElem? (by omega)) x.before_lt]
  cases x with
  | a => rw [State.ch, hdstA, hv]; simp [bitTimeEvents, Chan.before, Chan.agent, descriptor, portAfter_set_ones]
  | b =>
    obtain ⟨-, hbc, -⟩ := hdue
    rw [State.ch, hdstB, hv, hbc]
    rfl
  | c => rw [State.ch, hdstC, hv]; simp [bitTimeEvents, Chan.before, Chan.agent, descriptor, portAfter_clear_ones]

theorem Pipeline.sentEvents_served : (s.served x v).sentEvents = s.sentEvents + 1 := by
  have ha := Pipeline.left_served (v := v) h hready .a
  have hb := Pipeline.left_served (v := v) h hready .b
  have hc := Pipeline.left_served (v := v) h hready .c
  obtain ⟨-, hcount, -⟩ := h
  have hla := (hcount .a).left_le
  have hlb := (hcount .b).left_le
  have hlc := (hcount .c).left_le
  simp only [State.ch] at ha hb hc hla hlb hlc
  rw [State.sentEvents, State.sentEvents, State.served_len]
  cases x <;> simp only [reduceCtorEq, if_true, if_false] at ha hb hc <;> omega

end

/-! ## The schedule and the run -/

theorem nextTurn_plain {s : State} (h : s.turns.all Turn.plain = true) :
    (nextTurn s).1.plain = true ∧ (nextTurn s).2.turns.all Turn.plain = true := by
  unfold nextTurn
  split
  · next hturns => rwa [hturns, List.all_cons, Bool.and_eq_true] at h
  · exact ⟨rfl, h⟩

/-- An agent's own step leaves the schedule, and hands over an operation of the program or of the scheduler. -/
theorem agentTurn_plain (s : State) (a : Agent) (d : Nat) :
    (agentTurn s a d).2.turns = s.turns ∧
    ∀ o, (agentTurn s a d).1 = some o → o.issuer = .program ∨ o.issuer = .scheduler := by
  have hsched (i : Instr) : ∀ o, scheduled i = some o → o.issuer = .program ∨ o.issuer = .scheduler := by
    rintro _ ⟨⟩
    exact .inr rfl
  cases a with
  | host =>
    simp only [agentTurn, hostTurn]
    split
    · exact ⟨rfl, hsched _⟩
    · split
      · exact ⟨rfl, by rintro _ ⟨⟩; exact .inl rfl⟩
      · exact ⟨rfl, fun _ h => by cases h⟩
  | _ => exact ⟨rfl, hsched _⟩

/-- Under a plain schedule a fetch leaves a plain schedule and takes no operation of SH_SWAP or of a channel (log 15). -/
theorem fetch_plain {s u : State} {r : Option Issued} (h : s.turns.all Turn.plain = true) (hf : fetch s = (r, u)) :
    u.turns.all Turn.plain = true ∧ ∀ o, r = some o → o.issuer = .program ∨ o.issuer = .scheduler := by
  obtain ⟨hturn, hrest⟩ := nextTurn_plain h
  unfold fetch at hf
  split at hf
  · next a d t ht =>
    rw [ht] at hrest
    obtain ⟨hturns, hissuer⟩ := agentTurn_plain t a d
    rw [hf] at hturns hissuer
    exact ⟨hturns ▸ hrest, hissuer⟩
  · next issuer record t ht =>
    rw [ht] at hturn hrest
    cases hf
    refine ⟨hrest, ?_⟩
    rintro _ ⟨⟩
    cases issuer <;> simp_all [Turn.plain]

theorem run_succ_eq_next {n : Nat} {s t : State} (h : Host.Core.run Sys2Proof.core (n + 1) s = .next t) :
    ∃ u, step s = .next u ∧ Host.Core.run Sys2Proof.core n u = .next t := by
  simp only [Host.Core.run] at h
  split at h
  · exact ⟨_, ‹_›, h⟩
  · cases h
  · cases h

theorem run_trace_appended {n : Nat} {s t : State} (h : Host.Core.run Sys2Proof.core n s = .next t) : s.trace <+: t.trace := by
  induction n generalizing s with
  | zero => cases h; exact ⟨[], List.append_nil _⟩
  | succ n ih =>
    obtain ⟨u, hstep, hrest⟩ := run_succ_eq_next h
    exact (step_trace_appended hstep).trans (ih hrest)

/-! ## A frame being sent -/

/-- The frame launched in `s₀` is being sent in `s`: HOST cannot pass SH_WAIT_INFLIGHT, the pipeline keeps its invariant, and the
port events are those before the frame and then the frame's events sent so far. -/
structure Sending (s₀ s : State) : Prop where
  plain : s.turns.all Turn.plain = true
  initialized : s.initialized = true
  geometry : Geometry s
  inFlight : s.inFlight = true
  host : s.hostPhase = .ready ∨ s.hostPhase = .shWaitInFlight
  pipeline : Pipeline s
  pending : s.irq.pend = true → s.anyArmed = false
  frontBytes : s.frontBytes = s₀.frontBytes
  ports : s.trace.filter Event.isPort =
    s₀.trace.filter Event.isPort ++ (frameEvents s₀.frontBytes).take s.sentEvents

/-- The state SH_ARM leaves begins a frame: none of its events is sent yet. -/
theorem FrameInv.sending {s : State} (hinv : FrameInv s) (hlaunched : Launched s) : Sending s s := by
  obtain ⟨hinit, hready, hflight, -, ha, hb, hc, hcountA, hcountB, hcountC, -⟩ := hlaunched
  have hpipe := hinv.pipeline hinit
  obtain ⟨-, hplain, -, -, hgeom, hafterInit⟩ := hinv
  obtain ⟨-, -, -, -, -, -, ⟨-, -, -, hpend, -⟩, -⟩ := hafterInit hinit
  have hsent : s.sentEvents = 0 := by
    rw [State.sentEvents, Channel.left_of_armed ha, Channel.left_of_armed hb, Channel.left_of_armed hc, hcountA, hcountB, hcountC]
    omega
  exact ⟨hplain, hinit, hgeom, hflight, .inl hready, hpipe, hpend, rfl, by rw [hsent, List.take_zero, List.append_nil]⟩

section
variable {s₀ s : State} (h : Sending s₀ s)
include h

/-- While the frame is in flight SHOW gets no further than its first wait (43_sequencer R171). -/
theorem Sending.hostPhase_cases {p : HostPhase} (hp : s.hostPhase = p) : p = .ready ∨ p = .shWaitInFlight := hp ▸ h.host

/-- A store leaves the front half, so the frame's bytes, as they were (20_memory R84). -/
theorem Sending.stored {i : Instr} {m : Memory} (hst : Stores s i m) : Sending s₀ { s with mem := m } := by
  have hread {k : Nat} (hk : k < s.len) : Memory.read m (bitTimeAddr s.front k).toNat =
      Memory.read s.mem (bitTimeAddr s.front k).toNat :=
    hst.read_front h.initialized h.geometry (Geometry.bitTimeAddr_inFront h.geometry h.initialized hk)
  have hbytes : State.frontBytes { s with mem := m } = s.frontBytes :=
    List.map_congr_left fun k hk => hread (List.mem_range.mp hk)
  obtain ⟨hprog, hcount, hsrc, hlock⟩ := h.pipeline
  have hlast : State.lastSent { s with mem := m } = s.lastSent := by
    obtain ⟨hone, hle, -⟩ := hcount .a
    have hpos : s.len - s.chB.left - 1 < s.len := by omega
    exact hread hpos
  obtain ⟨hlow, hstep⟩ := (lockstep_iff s).mp hlock
  have hlock' : Lockstep { s with mem := m } := (lockstep_iff _).mpr ⟨hlow, fun harmed x hphase => by
    obtain ⟨hother, hpending, hserved⟩ := hstep harmed x hphase
    exact ⟨hother, fun hset => (hpending hset).congr (fun _ => rfl) rfl hlast,
      fun hclear => (hserved hclear).congr (fun _ => rfl) rfl hlast⟩⟩
  exact { h with pipeline := ⟨hprog, hcount, hsrc, hlock'⟩, frontBytes := hbytes.trans h.frontBytes }

/-- An edge moves the phase and a flag, and no event (40_waveform_and_lines R115 to R117). -/
theorem Sending.afterEdge {e : Edge} (hphase : s.tmr.phase = e.source) (hopen : s.windowOK = true) :
    Sending s₀ (s.afterEdge e) := by
  obtain ⟨hprog, hcount, hsrc, -⟩ := h.pipeline
  have hpipe : Pipeline (s.afterEdge e) := ⟨by cases e <;> exact hprog, by cases e <;> exact hcount, by cases e <;> exact hsrc,
    Lockstep.afterEdge h.pipeline hphase hopen⟩
  cases e <;> exact { h with pipeline := hpipe }

/-- A served request sends the frame's next event. -/
theorem Sending.served {x : Chan} {v : Byte} (hready : s.dmaReady x = true) (hbyte : s.sourceByte x = some v) :
    Sending s₀ (s.served x v) := by
  have hevent := Pipeline.next_event h.pipeline hready hbyte
  have hpipe : Pipeline (s.served x v) := Pipeline.served h.pipeline hready hbyte
  have hpending : (s.served x v).irq.pend = true → (s.served x v).anyArmed = false :=
    Pipeline.served_pending h.pipeline hready hbyte (Bool.eq_false_iff.mpr fun hpend => by
      obtain ⟨herq, -⟩ := (State.dmaReady_iff s x).mp hready
      have hnone := h.pending hpend
      rw [State.anyArmed_of_erq herq] at hnone
      cases hnone)
  have hports : (s.served x v).trace.filter Event.isPort =
      s₀.trace.filter Event.isPort ++ (frameEvents s₀.frontBytes).take (s.served x v).sentEvents := by
    rw [Pipeline.sentEvents_served h.pipeline hready, List.take_add_one, ← h.frontBytes, hevent, State.served_trace,
      List.filter_append, h.ports, h.frontBytes, List.append_assoc]
    rfl
  rw [State.served_frame] at hpipe hpending hports ⊢
  exact { h with pipeline := hpipe, pending := hpending, ports := hports }

/-- A frame goes on being sent through every step but the handler's. -/
theorem Sending.effect {t : State} {i : Instr} (he : Effect s i t) (hissuer : i.issuer = .program ∨ i.issuer = .scheduler)
    (hirq : t.trace.filter Event.isIrq = s.trace.filter Event.isIrq) : Sending s₀ t := by
  cases he with
  | held => exact h
  | faulted | refused | advanced => exact { h with }
  | stored hst => exact h.stored hst
  | observed _ _ hport =>
    refine { h with ports := ?_ }
    rw [State.emit_trace, List.filter_append, List.filter_cons_of_neg (Bool.eq_false_iff.mp hport), List.filter_nil,
      List.append_nil]
    exact h.ports
  | configured _ _ _ _ _ hinit => rw [h.initialized] at hinit; cases hinit
  | showBegun => exact { h with host := .inr rfl }
  | flightAwaited _ hflight => rw [h.inFlight] at hflight; cases hflight
  | halvesSwapped hp | gapAwaited hp | masked hp | timerStopped hp | launched hp =>
    exact absurd (h.hostPhase_cases hp) (by decide)
  | edgeTaken e _ hphase hopen => exact h.afterEdge hphase hopen
  | served x v hready hbyte => exact h.served hready hbyte
  | handled => simp [List.filter_append, Event.isIrq] at hirq
  | swapped | dataWritten | linesSet | linesCleared => simp [Instr.issuer] at hissuer

/-- The fetch moves the schedule and the program, which the frame does not look at. -/
theorem Sending.fetch {r : Option Issued} {u : State} (hf : fetch s = (r, u)) : Sending s₀ u := by
  obtain ⟨hplain, -⟩ := fetch_plain h.plain hf
  obtain rfl : u = (Machine.fetch s).2 := by rw [hf]
  rw [fetch_frame] at hplain ⊢
  exact { h with plain := hplain }

/-- A frame goes on being sent through a step in which the handler does not run. -/
theorem Sending.step {t : State} (hstep : step s = .next t)
    (hirq : t.trace.filter Event.isIrq = s.trace.filter Event.isIrq) : Sending s₀ t := by
  rcases step_cases s with ⟨u, hf, he⟩ | ⟨o, u, i, hf, haccept, he⟩ | ⟨o, u, e, hf, -, he⟩ <;> rw [he] at hstep
  · rw [(settle_next_iff.mp hstep).2]
    exact h.fetch hf
  · obtain ⟨-, hissuer⟩ := fetch_plain h.plain hf
    obtain ⟨-, hi⟩ := accept_eq_ok_iff.mp haccept
    exact (h.fetch hf).effect (exec_effect hstep) (hi ▸ hissuer o rfl) (trace_of_fetch hf ▸ hirq)
  · rw [(settle_next_iff.mp hstep).2]
    exact { h.fetch hf with }

/-- A frame goes on being sent over a run in which the handler does not step: each step only adds to the trace, so none of them
added a run of the handler. -/
theorem Sending.run {n : Nat} {t : State} (hrun : Host.Core.run Sys2Proof.core n s = .next t)
    (hirq : t.trace.filter Event.isIrq = s.trace.filter Event.isIrq) : Sending s₀ t := by
  induction n generalizing s with
  | zero => cases hrun; exact h
  | succ n ih =>
    obtain ⟨u, hstep, hrest⟩ := run_succ_eq_next hrun
    have hfirst := (step_trace_appended hstep).filter Event.isIrq
    have hlater := (run_trace_appended hrest).filter Event.isIrq
    have hsame : u.trace.filter Event.isIrq = s.trace.filter Event.isIrq :=
      (hfirst.eq_of_length (Nat.le_antisymm hfirst.length_le (hirq ▸ hlater.length_le))).symm
    exact ih (h.step hstep hsame) hrest (hirq.trans hsame.symm)

/-- When the interrupt is pending no channel is armed, so no transfer is left. -/
theorem Sending.sentEvents_of_pending (hpend : s.irq.pend = true) : s.sentEvents = (frameEvents s₀.frontBytes).length := by
  have hleft (x : Chan) : (s.ch x).left = 0 := State.left_of_idle (h.pending hpend) x
  have ha : s.chA.left = 0 := hleft .a
  have hb : s.chB.left = 0 := hleft .b
  have hc : s.chC.left = 0 := hleft .c
  rw [length_frameEvents, ← h.frontBytes, State.frontBytes, List.length_map, List.length_range, State.sentEvents, ha, hb, hc]
  rfl

end

/-- Settles O57: the launched frame is being sent, and goes on being sent over the run, because the handler, the one step that could
end it, would add an event that the trace does not have. -/
theorem frameWaveformIsTheFrontHalf : Obligations.FrameWaveformIsTheFrontHalf := by
  unfold Obligations.FrameWaveformIsTheFrontHalf
  intro n s t hinv hlaunched hrun hirq
  have h : Sending s t := (hinv.sending hlaunched).run hrun hirq
  refine ⟨h.frontBytes, h.ports, fun hpend => ?_⟩
  rw [h.ports, h.sentEvents_of_pending hpend, List.take_length]

end Sys2Proof.Machine
end

section
/-! SUPPORT. Proofs of the statements on faults, refusals and time (spec 60_exceptions R210, R212, R223): that exactly a running
block steps, what a step that ends the run leaves, and TIME. -/

namespace Sys2Proof.Machine

/-! ## Exactly a running block steps -/

/-- Every operation ends through `settle`, which alone decides whether the block has halted. -/
theorem exec_eq_settle (i : Instr) (s : State) : ∃ t, exec i s = settle s t := by cases i <;> exact ⟨_, rfl⟩

theorem step_eq_settle (s : State) : ∃ t, step s = settle (fetch s).2 t := by
  rcases step_cases s with ⟨u, hf, he⟩ | ⟨o, u, i, hf, -, he⟩ | ⟨o, u, e, hf, -, he⟩ <;> rw [he, hf]
  · exact ⟨_, rfl⟩
  · exact exec_eq_settle i u
  · exact ⟨_, rfl⟩

/-- A fetch neither halts a run nor resumes one. -/
theorem fetch_running (s : State) : (fetch s).2.running = s.running := by rw [fetch_frame]; rfl

theorem running_iff_settle_next (s t : State) : s.running = true ↔ ∃ u, settle s t = .next u :=
  ⟨fun h => ⟨t, settle_running t h⟩, fun ⟨_, h⟩ => (settle_next_iff.mp h).1⟩

theorem running_iff_exec_next (i : Instr) (s : State) : s.running = true ↔ ∃ t, exec i s = .next t := by
  obtain ⟨u, hu⟩ := exec_eq_settle i s
  rw [hu]
  exact running_iff_settle_next s u

theorem running_iff_step_next (s : State) : s.running = true ↔ ∃ t, step s = .next t := by
  obtain ⟨u, hu⟩ := step_eq_settle s
  rw [hu, ← fetch_running]
  exact running_iff_settle_next (fetch s).2 u

/-- Settles O6: every operation, and the step, ends through `settle`, in the block itself or in the one the fetch leaves. -/
theorem onlyARunningBlockSteps : Obligations.OnlyARunningBlockSteps := by
  unfold Obligations.OnlyARunningBlockSteps
  exact fun s => ⟨fun i => running_iff_exec_next i s, running_iff_step_next s⟩

/-- In a halted block neither an operation nor the step has a next state (60_exceptions R210, R212). -/
theorem no_next_of_halted {s : State} (h : s.running ≠ true) :
    (∀ (i : Instr) (t : State), exec i s ≠ .next t) ∧ ∀ t : State, step s ≠ .next t :=
  ⟨fun i t he => h ((running_iff_exec_next i s).mpr ⟨t, he⟩), fun t he => h ((running_iff_step_next s).mpr ⟨t, he⟩)⟩

/-! ## A step that ends the run -/

theorem raise_not_running (s : State) (i : Instr) (code : FaultCode) (info : FaultInfo) :
    (raise s i code info).running ≠ true := by
  simp [State.running_iff]

theorem refuse_not_running (s : State) : (refuse s).running ≠ true := by simp [State.running_iff]

/-- An operation raises a fault, is TIME 0 and refused, or touches neither the faults nor the refusal mark. -/
theorem Effect.halting_cases {s t : State} {i : Instr} (h : Effect s i t) :
    (∃ code info, t = raise s i code info) ∨ (i = .time 0 ∧ t = refuse s) ∨ (t.faults = s.faults ∧ t.refused = s.refused) := by
  cases h with
  | faulted i code info => exact .inl ⟨code, info, rfl⟩
  | refused => exact .inr (.inl ⟨rfl, rfl⟩)
  | edgeTaken => exact .inr (.inr (by simp))
  | served => exact .inr (.inr (by rw [State.served_frame]; simp))
  | _ => exact .inr (.inr ⟨rfl, rfl⟩)

/-- Settles O7: of all an operation can do, only `raise` changes the faults; it writes nothing else, and leaves the block halted. -/
theorem aFaultIsRecordedAloneAndHalts : Obligations.AFaultIsRecordedAloneAndHalts := by
  unfold Obligations.AFaultIsRecordedAloneAndHalts
  intro s t i hexec hfault
  rcases (exec_effect hexec).halting_cases with ⟨code, info, rfl⟩ | ⟨-, rfl⟩ | ⟨hsame, -⟩
  · exact ⟨⟨code, info, rfl⟩, no_next_of_halted (raise_not_running s i code info)⟩
  · exact absurd (refuse_faults s) hfault
  · exact absurd hsame hfault

/-- A step that sets the refusal mark sets it alone in the state the fetch leaves, for a record that is not accepted or for
TIME 0. -/
theorem refused_step {s t : State} (hstep : step s = .next t) (hmark : t.refused = true) :
    t = refuse (fetch s).2 ∧ ∃ o, (fetch s).1 = some o ∧
      ((∀ i, accept o.issuer o.record ≠ .ok i) ∨ accept o.issuer o.record = .ok (.time 0)) := by
  have hrun : (fetch s).2.running = true := (fetch_running s).trans ((running_iff_step_next s).mpr ⟨t, hstep⟩)
  obtain ⟨-, hclear⟩ := (State.running_iff _).mp hrun
  have hunmarked : (fetch s).2.refused ≠ true := Bool.eq_false_iff.mp hclear
  rcases step_cases s with ⟨u, hf, he⟩ | ⟨o, u, i, hf, haccept, he⟩ | ⟨o, u, e, hf, haccept, he⟩ <;>
    rw [he] at hstep <;> rw [hf] at hunmarked ⊢
  · obtain ⟨-, rfl⟩ := settle_next_iff.mp hstep
    exact absurd hmark hunmarked
  · rcases (exec_effect hstep).halting_cases with ⟨code, info, rfl⟩ | ⟨rfl, rfl⟩ | ⟨-, hsame⟩
    · exact absurd hmark hunmarked
    · exact ⟨rfl, o, rfl, .inr haccept⟩
    · exact absurd (hsame ▸ hmark) hunmarked
  · obtain ⟨-, rfl⟩ := settle_next_iff.mp hstep
    exact ⟨rfl, o, rfl, .inl fun i hi => by simp [haccept] at hi⟩

theorem exec_time_zero {s : State} (hrun : s.running = true) : exec (.time 0) s = .next (refuse s) := settle_running _ hrun

/-- Settles O8: the mark is set alone by TIME 0 and by a record that is not accepted, and a marked block has halted. -/
theorem aRefusalIsMarkedAloneAndHalts : Obligations.ARefusalIsMarkedAloneAndHalts := by
  unfold Obligations.ARefusalIsMarkedAloneAndHalts
  refine ⟨fun s => exec_time_zero, fun s t hstep hmark => ?_⟩
  obtain ⟨rfl, hcause⟩ := refused_step hstep hmark
  obtain ⟨hexec, hnext⟩ := no_next_of_halted (refuse_not_running (fetch s).2)
  exact ⟨rfl, by rw [fetch_frame], trace_of_fetch rfl, hexec, hnext, hcause⟩

/-! ## Time -/

/-- Settles O38: TIME asks only whether the block runs and whether d is 0. -/
theorem timeOnlyAdvancesNow : Obligations.TimeOnlyAdvancesNow := by
  unfold Obligations.TimeOnlyAdvancesNow
  refine fun s d hrun => ⟨fun hd => ?advanced, fun hd => hd ▸ exec_time_zero hrun⟩
  case advanced => rw [exec, execTime, if_neg (Nat.one_le_iff_ne_zero.mp hd), settle_running _ hrun]

end Sys2Proof.Machine
end

section
/-! SUPPORT. Proofs of the statements on reset and the time before INIT (spec 70_reset_and_hazards R240, R241): the values power-on
gives, the one fault of a HOST operation, and the waits that hold every other agent but CLK. -/

namespace Sys2Proof.Machine

/-! ## Power-on -/

/-- Settles O49: each value is the one `State.reset` is written with; `quiet_reset` gathers those that keep the block still until
INIT. -/
theorem powerOnValues : Obligations.PowerOnValues := by
  unfold Obligations.PowerOnValues
  obtain ⟨hcfg, hflight, hdone, hstop, -, -, -, hen, hmask, hready⟩ := quiet_reset rfl
  exact ⟨rfl, hcfg, hflight, hdone, hstop, rfl, hen, hmask, hready, rfl, rfl, rfl⟩

/-! ## HOST's operations before INIT -/

theorem Instr.agent_of_program {i : Instr} (hi : i.issuer = .program) : i.agent = .host := by
  cases i <;> cases hi <;> rfl

/-- At READY every operation of a program but INIT asks first whether INIT has run, SHOW too (60_exceptions R211). -/
theorem exec_eq_afterInit_of_program {s : State} {i : Instr} (hready : s.hostPhase = .ready) (hi : i.issuer = .program)
    (hninit : ∀ n base size rate, i ≠ .init n base size rate) :
    ∃ t, exec i s = settle s (hostStep s (afterInit s i t)) := by
  cases i with
  | init n base size rate => exact absurd rfl (hninit n base size rate)
  | showOp =>
    have hshow : showEffect s = afterInit s .showOp { s with hostPhase := .shWaitInFlight } := if_neg (not_not_intro hready)
    exact ⟨_, congrArg (settle s) (hshow.trans (if_pos hready).symm)⟩
  | writeDraw | readDraw | memWrite | memRead | busy => exact ⟨_, rfl⟩
  | _ => cases hi

theorem exec_program_notInit {s : State} {i : Instr} (hrun : s.running = true) (hready : s.hostPhase = .ready)
    (hinit : s.initialized = false) (hi : i.issuer = .program) (hninit : ∀ n base size rate, i ≠ .init n base size rate) :
    exec i s = .next (s.faulted .notInit .none .host i.code) := by
  obtain ⟨t, ht⟩ := exec_eq_afterInit_of_program hready hi hninit
  rw [ht, settle_hostStep_notInit i t hrun hready hinit, Instr.agent_of_program hi]

/-! ## The other agents before INIT -/

/-- A channel that is not armed is held, whatever its flag (42_transmit_pipeline R151; log 1). -/
theorem exec_op_unarmed {s : State} {x : Chan} (hrun : s.running = true) (herq : (s.ch x).erq = false) :
    exec x.op s = .next s := by
  have hidle : s.dmaReady x = false := by rw [State.dmaReady, herq, Bool.false_and]
  rw [exec_op, dmaEffect, hidle]
  exact settle_running s hrun

/-- Before INIT SHOW is at READY, the timer is stopped, no channel is armed and the interrupt is not enabled, so every step of an
agent other than HOST's program and CLK waits. -/
theorem exec_held_beforeInit {s : State} {i : Instr} (hrun : s.running = true) (hquiet : Quiet s) (hinit : s.initialized = false)
    (hi : i.issuer ≠ .program) (htime : ∀ d, i ≠ .time d) : exec i s = .next s := by
  obtain ⟨-, -, -, hstop, ha, hb, hc, hen, -, hready⟩ := hquiet hinit
  obtain ⟨-, hwait, -, -, -, hrise, hfall0, hfall1, hirq, honce⟩ := stepsWaitForTheirTurn s hrun
  obtain ⟨hswap, hport⟩ := honce hinit
  have hmicro (p : HostPhase) {j : Instr} (hj : p.micro = some j) : exec j s = .next s :=
    hwait p j hj fun hp => by rw [← hp, hready] at hj; cases hj
  cases i with
  | swap => exact hswap
  | shWaitInFlight => exact hmicro .shWaitInFlight rfl
  | shSwap => exact hmicro .shSwap rfl
  | shWaitGap => exact hmicro .shWaitGap rfl
  | shMask => exact hmicro .shMask rfl
  | shAlignStop => exact hmicro .shAlignStop rfl
  | shArm => exact hmicro .shArm rfl
  | edgeRise => exact hrise (.inl hstop)
  | edgeFall0 => exact hfall0 (.inl hstop)
  | edgeFall1 => exact hfall1 (.inl hstop)
  | dmaA => exact exec_op_unarmed (x := .a) hrun ha
  | dmaB => exact exec_op_unarmed (x := .b) hrun hb
  | dmaC => exact exec_op_unarmed (x := .c) hrun hc
  | irqCompletion => exact hirq (.inr (.inl hen))
  | time d => exact absurd rfl (htime d)
  | portData v => exact (hport v).1
  | portSet v => exact (hport v).2.1
  | portClear v => exact (hport v).2.2
  | init | writeDraw | readDraw | memWrite | memRead | showOp | busy => exact absurd rfl hi

/-- Settles O50: HOST's operations ask whether INIT has run, and every other step but TIME needs something
a quiet block does not have: SHOW in progress, a running timer, an armed channel, an enabled interrupt, or INIT itself. -/
theorem beforeInitOnlyInitAndTimeAct : Obligations.BeforeInitOnlyInitAndTimeAct := by
  unfold Obligations.BeforeInitOnlyInitAndTimeAct
  intro s i hrun hquiet hinit
  obtain ⟨-, -, -, -, -, -, -, -, -, hready⟩ := hquiet hinit
  exact ⟨exec_program_notInit hrun hready hinit, exec_held_beforeInit hrun hquiet hinit⟩

end Sys2Proof.Machine
end

section
/-! SUPPORT. Proofs of the statements on who writes what (spec 10_state R32 to R54): for each part of the state the operations that
can change it, by the cases of `Effect`, and that the records are only appended to. -/

namespace Sys2Proof.Machine

/-! ## What a served request leaves alone -/

section
variable (s : State) (x : Chan) (v : Byte)

@[simp] theorem State.served_params : (s.served x v).params = s.params := by simp [State.served]
@[simp] theorem State.served_initialized : (s.served x v).initialized = s.initialized := by simp [State.served]
@[simp] theorem State.served_cfg : (s.served x v).cfg = s.cfg := by simp [State.served]
@[simp] theorem State.served_draw : (s.served x v).draw = s.draw := by simp [State.served]
@[simp] theorem State.served_inFlight : (s.served x v).inFlight = s.inFlight := by simp [State.served]
@[simp] theorem State.served_completedAt : (s.served x v).completedAt = s.completedAt := by simp [State.served]
@[simp] theorem State.served_now : (s.served x v).now = s.now := by simp [State.served]
@[simp] theorem State.served_imask : (s.served x v).imask = s.imask := by simp [State.served]
@[simp] theorem State.served_hostPhase : (s.served x v).hostPhase = s.hostPhase := by simp [State.served]
@[simp] theorem State.served_program : (s.served x v).program = s.program := by simp [State.served]
@[simp] theorem State.served_turns : (s.served x v).turns = s.turns := by simp [State.served]

end

/-! ## The part of the state each operation can write

INIT configures only a block that is not initialised, so on an initialised one the case of `Effect.configured` is closed by
`hinit`; the other cases are the operations the lemma excludes, and those that leave the part alone. -/

namespace Effect

variable {s t : State} {i : Instr} (h : Effect s i t)
include h

theorem params_eq : t.params = s.params := by
  cases h with
  | edgeTaken | served => simp
  | _ => rfl

theorem program_turns_eq : t.program = s.program ∧ t.turns = s.turns := by
  cases h with
  | edgeTaken | served => simp
  | _ => exact ⟨rfl, rfl⟩

/-- Time goes only forward, and only in TIME (10_state R37). -/
theorem now_cases : t.now = s.now ∨ ∃ d, i = .time d ∧ t.now = s.now + d := by
  cases h with
  | advanced d => exact .inr ⟨d, rfl, rfl⟩
  | edgeTaken | served => exact .inl (by simp)
  | _ => exact .inl rfl

/-- A step emits at most one event (10_state R54). -/
theorem trace_eq_append : ∃ es, t.trace = s.trace ++ es ∧ es.length ≤ 1 := by
  cases h with
  | observed | handled | dataWritten | linesSet | linesCleared => exact ⟨[_], rfl, Nat.le_refl 1⟩
  | served => exact ⟨[_], State.served_trace .., Nat.le_refl 1⟩
  | edgeTaken => exact ⟨[], by simp, Nat.zero_le 1⟩
  | _ => exact ⟨[], (List.append_nil _).symm, Nat.zero_le 1⟩

/-- Faults are recorded and never cleared (10_state R53). -/
theorem faults_eq_append : ∃ fs, t.faults = s.faults ++ fs := by
  rcases h.halting_cases with ⟨code, info, rfl⟩ | ⟨-, rfl⟩ | ⟨hsame, -⟩
  · exact ⟨_, raise_faults ..⟩
  · exact ⟨[], (List.append_nil _).symm⟩
  · exact ⟨[], hsame.trans (List.append_nil _).symm⟩

section
variable (hi : ∀ n base size rate, i = .init n base size rate → s.initialized = true)
include hi

theorem configuration_eq : t.initialized = s.initialized ∧ t.cfg = s.cfg ∧ t.port.oe = s.port.oe ∧ t.tmr.rate = s.tmr.rate ∧
    t.irq.en = s.irq.en := by
  cases h with
  | configured _ _ _ _ _ hnot => exact Bool.noConfusion ((hi _ _ _ _ rfl).symm.trans hnot)
  | edgeTaken | served => simp
  | _ => exact ⟨rfl, rfl, rfl, rfl, rfl⟩

/-- Of a descriptor only src, citer, done and erq are ever written (10_state R48). -/
theorem ch_eq_update (x : Chan) :
    t.ch x = { s.ch x with src := (t.ch x).src, citer := (t.ch x).citer, done := (t.ch x).done, erq := (t.ch x).erq } := by
  cases h with
  | configured _ _ _ _ _ hnot => exact Bool.noConfusion ((hi _ _ _ _ rfl).symm.trans hnot)
  | edgeTaken e => cases e <;> rfl
  | served y =>
    rw [State.ch_served]
    split
    · next hx => rw [hx, Channel.afterTransfer]; split <;> rfl
    · rfl
  | launched | halvesSwapped => cases x <;> rfl
  | _ => rfl

end

section
variable (hinit : s.initialized = true)
include hinit

theorem roles_eq (hswap : i ≠ .swap) (hsh : i ≠ .shSwap) : t.front = s.front ∧ t.draw = s.draw := by
  cases h with
  | configured _ _ _ _ _ hnot => exact Bool.noConfusion (hinit.symm.trans hnot)
  | swapped => exact absurd rfl hswap
  | halvesSwapped => exact absurd rfl hsh
  | edgeTaken | served => simp
  | _ => exact ⟨rfl, rfl⟩

theorem inFlight_eq (harm : i ≠ .shArm) (hirq : i ≠ .irqCompletion) : t.inFlight = s.inFlight := by
  cases h with
  | configured _ _ _ _ _ hnot => exact Bool.noConfusion (hinit.symm.trans hnot)
  | launched => exact absurd rfl harm
  | handled => exact absurd rfl hirq
  | edgeTaken | served => simp
  | _ => rfl

theorem completedAt_eq (hirq : i ≠ .irqCompletion) : t.completedAt = s.completedAt := by
  cases h with
  | configured _ _ _ _ _ hnot => exact Bool.noConfusion (hinit.symm.trans hnot)
  | handled => exact absurd rfl hirq
  | edgeTaken | served => simp
  | _ => rfl

theorem port_eq (hdma : ∀ x : Chan, i ≠ x.op) (hprim : ∀ v, i ≠ .portData v ∧ i ≠ .portSet v ∧ i ≠ .portClear v) :
    t.port = s.port := by
  cases h with
  | configured _ _ _ _ _ hnot => exact Bool.noConfusion (hinit.symm.trans hnot)
  | served x => exact absurd rfl (hdma x)
  | dataWritten v => exact absurd rfl (hprim v).1
  | linesSet v => exact absurd rfl (hprim v).2.1
  | linesCleared v => exact absurd rfl (hprim v).2.2
  | edgeTaken => simp
  | _ => rfl

theorem run_eq (hstop : i ≠ .shAlignStop) (harm : i ≠ .shArm) : t.tmr.run = s.tmr.run := by
  cases h with
  | configured _ _ _ _ _ hnot => exact Bool.noConfusion (hinit.symm.trans hnot)
  | timerStopped => exact absurd rfl hstop
  | launched => exact absurd rfl harm
  | edgeTaken | served => simp
  | _ => rfl

theorem phase_eq (hedge : ∀ e : Edge, i ≠ edgeAfter e.source) : t.tmr.phase = s.tmr.phase := by
  cases h with
  | configured _ _ _ _ _ hnot => exact Bool.noConfusion (hinit.symm.trans hnot)
  | edgeTaken e => exact absurd rfl (hedge e)
  | served => simp
  | _ => rfl

theorem flag_eq (hdma : ∀ x : Chan, i ≠ x.op) (harm : i ≠ .shArm) (e : Edge) (hedge : i ≠ edgeAfter e.source) :
    t.flag e = s.flag e := by
  cases h with
  | configured _ _ _ _ _ hnot => exact Bool.noConfusion (hinit.symm.trans hnot)
  | edgeTaken f => exact (State.flag_afterEdge s f e).trans (if_neg fun (he : e = f) => hedge (he ▸ rfl))
  | served x => exact absurd rfl (hdma x)
  | launched => exact absurd rfl harm
  | _ => rfl

/-- Besides a channel's own transfer only SH_ARM writes its descriptor, and, of channel B's, SH_SWAP (10_state R49). -/
theorem ch_eq (x : Chan) (hdma : i ≠ x.op) (harm : i ≠ .shArm) (hswap : x = .b → i ≠ .shSwap) : t.ch x = s.ch x := by
  cases h with
  | configured _ _ _ _ _ hnot => exact Bool.noConfusion (hinit.symm.trans hnot)
  | served y => exact (State.ch_served ..).trans (if_neg fun (he : x = y) => hdma (he ▸ rfl))
  | launched => exact absurd rfl harm
  | halvesSwapped =>
    cases x with
    | b => exact absurd rfl (hswap rfl)
    | a | c => rfl
  | edgeTaken e => cases e <;> rfl
  | _ => rfl

theorem irq_eq (hdma : ∀ x : Chan, i ≠ x.op) (hirq : i ≠ .irqCompletion) : t.irq = s.irq := by
  cases h with
  | configured _ _ _ _ _ hnot => exact Bool.noConfusion (hinit.symm.trans hnot)
  | served x => exact absurd rfl (hdma x)
  | handled => exact absurd rfl hirq
  | edgeTaken => simp
  | _ => rfl

theorem imask_eq (hmask : i ≠ .shMask) (harm : i ≠ .shArm) : t.imask = s.imask := by
  cases h with
  | configured _ _ _ _ _ hnot => exact Bool.noConfusion (hinit.symm.trans hnot)
  | masked => exact absurd rfl hmask
  | launched => exact absurd rfl harm
  | edgeTaken | served => simp
  | _ => rfl

end

/-- Only SHOW and its micro-steps move HOST (10_state R52). -/
theorem hostPhase_eq (hshow : i ≠ .showOp) (hmicro : ∀ p : HostPhase, p.micro ≠ some i) : t.hostPhase = s.hostPhase := by
  cases h with
  | showBegun => exact absurd rfl hshow
  | flightAwaited => exact absurd rfl (hmicro .shWaitInFlight)
  | halvesSwapped => exact absurd rfl (hmicro .shSwap)
  | gapAwaited => exact absurd rfl (hmicro .shWaitGap)
  | masked => exact absurd rfl (hmicro .shMask)
  | timerStopped => exact absurd rfl (hmicro .shAlignStop)
  | launched => exact absurd rfl (hmicro .shArm)
  | edgeTaken | served => simp
  | _ => rfl

end Effect

/-! ## The statements -/

theorem Chan.ne_op_of_ne {i : Instr} (ha : i ≠ .dmaA) (hb : i ≠ .dmaB) (hc : i ≠ .dmaC) (x : Chan) : i ≠ x.op := by
  cases x with
  | a => exact ha
  | b => exact hb
  | c => exact hc

/-- Settles O41: only `initEffect` writes these parts, and it needs a block that is not initialised; the fixed fields of a
descriptor are those `Effect.ch_eq_update` keeps. -/
theorem onlyInitConfigures : Obligations.OnlyInitConfigures := by
  unfold Obligations.OnlyInitConfigures
  intro s t i h
  have he : Effect s i t := exec_effect h
  refine ⟨he.params_eq, fun hcase => ?_⟩
  have hi (n : Nat) (base : Addr) (size rate : Nat) (heq : i = .init n base size rate) : s.initialized = true :=
    hcase.resolve_left fun hne => hne n base size rate heq
  obtain ⟨hinit, hcfg, hoe, hrate, hen⟩ := he.configuration_eq hi
  refine ⟨hinit, hcfg, hoe, hrate, hen, fun x => ?_⟩
  rw [he.ch_eq_update hi x]
  exact ⟨rfl, rfl, rfl, rfl, rfl, rfl, rfl, rfl⟩

/-- Settles O42: a lemma on `Effect` for each of the four parts. -/
theorem writersOfTheTransmissionState : Obligations.WritersOfTheTransmissionState := by
  unfold Obligations.WritersOfTheTransmissionState
  intro s t i h hinit
  have he : Effect s i t := exec_effect h
  refine ⟨he.roles_eq hinit, he.inFlight_eq hinit, he.completedAt_eq hinit, fun htime => ?same, ?forward⟩
  case same => exact he.now_cases.resolve_right fun ⟨d, hd, _⟩ => htime d hd
  case forward =>
    rcases he.now_cases with hsame | ⟨d, -, hlater⟩
    · exact Nat.le_of_eq hsame.symm
    · exact hlater ▸ Nat.le_add_right s.now d

/-- Settles O43: the edges are asked for at once, as the steps that leave each phase, and the flags one by one. -/
theorem writersOfPortTimerAndFlags : Obligations.WritersOfPortTimerAndFlags := by
  unfold Obligations.WritersOfPortTimerAndFlags
  intro s t i h hinit
  have he : Effect s i t := exec_effect h
  refine ⟨fun ha hb hc => he.port_eq hinit (Chan.ne_op_of_ne ha hb hc), he.run_eq hinit, fun hrise hfall0 hfall1 => ?phase,
    fun ha hb hc harm => ?flags⟩
  case phase =>
    refine he.phase_eq hinit fun e => ?_
    cases e with
    | rise => exact hrise
    | fall0 => exact hfall0
    | fall1 => exact hfall1
  case flags =>
    have hflag := he.flag_eq hinit (Chan.ne_op_of_ne ha hb hc) harm
    exact ⟨hflag .rise, hflag .fall0, hflag .fall1⟩

theorem chB_of_shSwap {s t : State} (h : exec .shSwap s = .next t) : t.chB = { s.chB with src := t.chB.src } := by
  obtain ⟨-, rfl⟩ := settle_next_iff.mp h
  rcases microStep_cases s .shSwap true (shSwapEffect s) with ⟨-, -, he⟩ | ⟨-, he⟩
  · rw [he]; rfl
  · rw [he]

theorem ch_of_shArm {s t : State} (h : exec .shArm s = .next t) (x : Chan) :
    t.ch x = { s.ch x with done := (t.ch x).done, erq := (t.ch x).erq } := by
  obtain ⟨-, rfl⟩ := settle_next_iff.mp h
  rcases microStep_cases s .shArm true (shArmEffect s) with ⟨-, -, he⟩ | ⟨-, he⟩
  · rw [he]; cases x <;> rfl
  · rw [he]

/-- Settles O44: who writes a descriptor is `Effect.ch_eq`, what a transfer writes of it `Effect.ch_eq_update`. -/
theorem writersOfTheDescriptors : Obligations.WritersOfTheDescriptors := by
  unfold Obligations.WritersOfTheDescriptors
  intro s t i h hinit
  have he : Effect s i t := exec_effect h
  have hwritten (x : Chan) := he.ch_eq_update (fun _ _ _ _ _ => hinit) x
  refine ⟨fun ha harm => he.ch_eq hinit .a ha harm nofun, fun hb harm hswap => he.ch_eq hinit .b hb harm fun _ => hswap,
    fun hc harm => he.ch_eq hinit .c hc harm nofun, fun hi => chB_of_shSwap (hi ▸ h), fun hi => ?armed,
    fun _ => hwritten .a, fun _ => hwritten .b, fun _ => hwritten .c⟩
  case armed =>
    subst hi
    exact ⟨ch_of_shArm h .a, ch_of_shArm h .b, ch_of_shArm h .c⟩

/-- Settles O45: a lemma on `Effect` for each part; HOST's position is asked for through `HostPhase.micro`. -/
theorem writersOfInterruptAndHostPhase : Obligations.WritersOfInterruptAndHostPhase := by
  unfold Obligations.WritersOfInterruptAndHostPhase
  intro s t i h hinit
  have he : Effect s i t := exec_effect h
  refine ⟨fun ha hb hc => he.irq_eq hinit (Chan.ne_op_of_ne ha hb hc), he.imask_eq hinit,
    fun hshow hflight hswap hgap hmask hstop harm => he.hostPhase_eq hshow fun p hp => ?_, he.program_turns_eq⟩
  cases p with
  | ready => cases hp
  | shWaitInFlight => exact hflight (Option.some.inj hp).symm
  | shSwap => exact hswap (Option.some.inj hp).symm
  | shWaitGap => exact hgap (Option.some.inj hp).symm
  | shMask => exact hmask (Option.some.inj hp).symm
  | shAlignStop => exact hstop (Option.some.inj hp).symm
  | shArm => exact harm (Option.some.inj hp).symm

/-! ## The step -/

/-- A step ends in the state its fetch leaves, in that state refused, or in what an operation makes of it, whose issuer is the one
the fetch names. -/
theorem step_next_cases {s t : State} (h : step s = .next t) :
    t = (fetch s).2 ∨ t = refuse (fetch s).2 ∨
      ∃ o i, (fetch s).1 = some o ∧ i.issuer = o.issuer ∧ exec i (fetch s).2 = .next t := by
  rcases step_cases s with ⟨u, hf, he⟩ | ⟨o, u, i, hf, haccept, he⟩ | ⟨o, u, e, hf, -, he⟩ <;> rw [he] at h <;> rw [hf]
  · exact .inl (settle_next_iff.mp h).2
  · exact .inr (.inr ⟨o, i, rfl, (accept_eq_ok_iff.mp haccept).2, h⟩)
  · exact .inr (.inl (settle_next_iff.mp h).2)

/-- Settles O46: a step appends what its operation does; a marked block has no next state. -/
theorem recordsAreOnlyAppended : Obligations.RecordsAreOnlyAppended := by
  unfold Obligations.RecordsAreOnlyAppended
  intro s t h
  have htrace : (fetch s).2.trace = s.trace := trace_of_fetch rfl
  have hfaults : (fetch s).2.faults = s.faults := by rw [fetch_frame]
  refine ⟨?trace, ?faults, fun hmark => ?refused⟩
  case trace =>
    rw [← htrace]
    rcases step_next_cases h with rfl | rfl | ⟨-, i, -, -, he⟩
    · exact ⟨[], (List.append_nil _).symm, Nat.zero_le 1⟩
    · exact ⟨[], (List.append_nil _).symm, Nat.zero_le 1⟩
    · exact (exec_effect he).trace_eq_append
  case faults =>
    rw [← hfaults]
    rcases step_next_cases h with rfl | rfl | ⟨-, i, -, -, he⟩
    · exact ⟨[], (List.append_nil _).symm⟩
    · exact ⟨[], (List.append_nil _).symm⟩
    · exact (exec_effect he).faults_eq_append
  case refused =>
    obtain ⟨-, hclear⟩ := (State.running_iff s).mp ((running_iff_step_next s).mpr ⟨t, h⟩)
    rw [hmark] at hclear
    cases hclear

end Sys2Proof.Machine
end

section
/-! SUPPORT. Proofs of the statements on the invariants (spec 10_state R33, R57; 42_transmit_pipeline R159, R160; 43_sequencer R171
to R176; 44_completion R191, R196): that every step keeps the geometry and the frame invariant, and what the invariant gives. -/

namespace Sys2Proof.Machine

/-! ## The geometry -/

/-- An INIT that initialises the block was issued at READY and has passed its checks (41_buffer_manager R130). -/
theorem exec_init_checked {s t : State} {n : Nat} {base : Addr} {size rate : Nat}
    (h : exec (.init n base size rate) s = .next t) (hbefore : s.initialized = false) (hafter : t.initialized = true) :
    s.hostPhase = .ready ∧ n ≠ 0 ∧ base.toNat + 2 * (24 * n) ≤ 2 ^ 32 := by
  obtain ⟨-, rfl⟩ := settle_next_iff.mp h
  rcases hostStep_cases s (initChecked s n base size rate) with ⟨hready, he⟩ | ⟨-, he⟩ <;> rw [he] at hafter
  · rcases initChecked_cases s n base size rate with ⟨c, f, hc⟩ | ⟨-, -, -, hn, -, -, hwrap, -⟩
    · rw [hc, raise_initialized] at hafter
      exact Bool.noConfusion (hbefore.symm.trans hafter)
    · exact ⟨hready, hn, hwrap⟩
  · exact Bool.noConfusion (hbefore.symm.trans hafter)

/-- The block INIT makes: the front half first, the draw half after it (41_buffer_manager R136). -/
theorem geometry_initEffect (s : State) {n : Nat} {base : Addr} (size : Nat) (r : Rate) (hn : n ≠ 0)
    (hwrap : base.toNat + 2 * (24 * n) ≤ 2 ^ 32) : Geometry (initEffect s n base size r) :=
  fun _ => ⟨rfl, rfl, Nat.one_le_iff_ne_zero.mpr hn, hwrap, .inl ⟨rfl, rfl⟩⟩

/-- INIT makes the geometry, SWAP and SH_SWAP exchange its halves, and no other operation touches it. -/
theorem Geometry.exec {s t : State} {i : Instr} (hg : Geometry s) (h : exec i s = .next t) : Geometry t := by
  cases exec_effect h with
  | configured n base size rate r hinit =>
    obtain ⟨-, hn, hwrap⟩ := exec_init_checked h hinit rfl
    exact geometry_initEffect s size r hn hwrap
  | swapped | halvesSwapped => exact Geometry.swapEffect hg
  | edgeTaken e => cases e <;> exact hg
  | served => rw [State.served_frame]; exact hg
  | _ => exact hg

theorem Geometry.fetch {s : State} (hg : Geometry s) : Geometry (fetch s).2 := by rw [fetch_frame]; exact hg

/-- Settles O53: the fetch and a refusal leave the geometry alone, and every operation keeps it. -/
theorem everyStepKeepsTheGeometry : Obligations.EveryStepKeepsTheGeometry := by
  unfold Obligations.EveryStepKeepsTheGeometry
  intro s t hg h
  rcases step_next_cases h with rfl | rfl | ⟨-, i, -, -, he⟩
  · exact hg.fetch
  · exact hg.fetch
  · exact hg.fetch.exec he

/-! ## The parts of the frame invariant -/

/-- How the frame and the interrupt go together (10_state R57 item 4): in flight is what has a channel armed or the interrupt
pending, and it cannot have both. -/
abbrev Flight (s : State) : Prop :=
  (s.anyArmed = true ∨ s.irq.pend = true → s.inFlight = true) ∧
  (s.inFlight = true → s.chC.erq = true ∨ s.irq.pend = true) ∧ (s.irq.pend = true → s.anyArmed = false)

/-- What holds where HOST stands at `p`: the waits SHOW has passed, and the critical section (43_sequencer R171 to R176). -/
def HostPhase.Fits (s : State) : HostPhase → Prop
  | .ready | .shWaitInFlight => s.imask = false ∧ s.tmr.run = true
  | .shSwap | .shWaitGap => s.inFlight = false ∧ s.imask = false ∧ s.tmr.run = true
  | .shMask => s.inFlight = false ∧ s.gapRunning = false ∧ s.imask = false ∧ s.tmr.run = true
  | .shAlignStop => s.inFlight = false ∧ s.gapRunning = false ∧ s.imask = true ∧ s.tmr.run = true
  | .shArm => s.inFlight = false ∧ s.gapRunning = false ∧ s.imask = true ∧ s.tmr.run = false ∧ s.tmr.phase = .tail

theorem sequenced_iff (s : State) : Sequenced s ↔ s.irq.en = true ∧ Flight s ∧ s.hostPhase.Fits s := by
  have hfits : s.hostPhase.Fits s ↔
      (s.hostPhase = .shSwap ∨ s.hostPhase = .shWaitGap ∨ s.hostPhase = .shMask ∨ s.hostPhase = .shAlignStop ∨
        s.hostPhase = .shArm → s.inFlight = false) ∧
      (s.hostPhase = .shMask ∨ s.hostPhase = .shAlignStop ∨ s.hostPhase = .shArm → s.gapRunning = false) ∧
      (s.imask = true ↔ s.hostPhase = .shAlignStop ∨ s.hostPhase = .shArm) ∧
      (s.tmr.run = false ↔ s.hostPhase = .shArm) ∧ (s.hostPhase = .shArm → s.tmr.phase = .tail) := by
    cases s.hostPhase <;> simp [HostPhase.Fits]
  rw [hfits]
  exact ⟨fun ⟨hen, hbegun, hunfinished, hpending, hhost⟩ => ⟨hen, ⟨hbegun, hunfinished, hpending⟩, hhost⟩,
    fun ⟨hen, ⟨hbegun, hunfinished, hpending⟩, hhost⟩ => ⟨hen, hbegun, hunfinished, hpending, hhost⟩⟩

/-- What the frame invariant says of an initialised block besides its geometry. -/
structure Live (s : State) : Prop where
  driven : s.port.oe = 0xFF#8
  pipeline : Pipeline s
  enabled : s.irq.en = true
  flight : Flight s
  host : s.hostPhase.Fits s

theorem frameInv_iff (s : State) :
    FrameInv s ↔ s.params.alignMode = .assumed ∧ s.turns.all Turn.plain = true ∧
      s.completedAt.all (fun t => decide (t ≤ s.now)) = true ∧ Quiet s ∧ Geometry s ∧ (s.initialized = true → Live s) := by
  have hlive : Live s ↔ s.port.oe = 0xFF#8 ∧ Programmed s ∧ CountOk s s.chA ∧ CountOk s s.chB ∧ CountOk s s.chC ∧ SourceOk s ∧
      Sequenced s ∧ Lockstep s := by
    rw [sequenced_iff]
    constructor
    · rintro ⟨hoe, ⟨hprog, hcount, hsrc, hlock⟩, hen, hflight, hhost⟩
      exact ⟨hoe, hprog, hcount .a, hcount .b, hcount .c, hsrc, ⟨hen, hflight, hhost⟩, hlock⟩
    · rintro ⟨hoe, hprog, ha, hb, hc, hsrc, ⟨hen, hflight, hhost⟩, hlock⟩
      exact ⟨hoe, ⟨hprog, fun | .a => ha | .b => hb | .c => hc, hsrc, hlock⟩, hen, hflight, hhost⟩
  rw [hlive]

/-! ## Before INIT -/

/-- The timer does not run before INIT (70_reset_and_hazards R240). -/
theorem Quiet.initialized_of_timer {s : State} (h : Quiet s) (htmr : s.tmr.run = true) : s.initialized = true := by
  refine Bool.of_not_eq_false fun hnot => ?_
  obtain ⟨-, -, -, hstop, -⟩ := h hnot
  exact Bool.noConfusion (htmr.symm.trans hstop)

/-- What moves anything but memory, time and the records needs an initialised block, or makes it one. -/
theorem Effect.quiet {s t : State} {i : Instr} (h : Effect s i t) (hquiet : Quiet s) : Quiet t := by
  have hmicro {p : HostPhase} (hp : s.hostPhase = p) (hne : p ≠ .ready) : s.initialized = true :=
    Quiet.initialized_of_hostPhase hquiet (hp ▸ hne)
  have hvacuous {u : State} (hinit : u.initialized = true) : Quiet u := fun hnot => Bool.noConfusion (hinit.symm.trans hnot)
  cases h with
  | configured => exact hvacuous rfl
  | swapped hinit | showBegun _ hinit | dataWritten _ hinit | linesSet _ hinit | linesCleared _ hinit => exact hvacuous hinit
  | flightAwaited hp | halvesSwapped hp | gapAwaited hp | masked hp | timerStopped hp | launched hp =>
    exact hvacuous (hmicro hp (by decide))
  | edgeTaken e htmr =>
    exact hvacuous ((State.putFlag_initialized ..).trans (Quiet.initialized_of_timer hquiet htmr))
  | served x v hready =>
    obtain ⟨herq, -⟩ := (State.dmaReady_iff s x).mp hready
    exact hvacuous ((State.served_initialized ..).trans (Quiet.initialized_of_erq hquiet herq))
  | handled hready => exact hvacuous (u := handlerBody s.irqEnter) (Quiet.initialized_of_irqReady (s := s) hquiet hready)
  | held | faulted | refused | stored | observed | advanced => exact hquiet

/-- Only INIT initialises the block (10_state R32). -/
theorem Effect.initialized_cases {s t : State} {i : Instr} (h : Effect s i t) :
    t.initialized = s.initialized ∨
      ∃ n base size rate r, i = .init n base size rate ∧ s.initialized = false ∧ t = initEffect s n base size r := by
  cases h with
  | configured n base size rate r hnot => exact .inr ⟨n, base, size, rate, r, rfl, hnot, rfl⟩
  | edgeTaken | served => exact .inl (by simp)
  | _ => exact .inl rfl

/-- No frame completes later than now: the handler stamps the current time, and time goes only forward. -/
theorem Effect.completed_le_now {s t : State} {i : Instr} (h : Effect s i t)
    (hle : s.completedAt.all (fun c => decide (c ≤ s.now)) = true) :
    t.completedAt.all (fun c => decide (c ≤ t.now)) = true := by
  cases h with
  | configured => rfl
  | handled => simp
  | advanced d =>
    rw [Option.all_eq_true] at hle ⊢
    exact fun c hc => decide_eq_true (Nat.le_add_right_of_le (of_decide_eq_true (hle c hc)))
  | edgeTaken | served => simpa using hle
  | _ => exact hle

/-! ## The pipeline -/

section
variable {s : State} (h : Pipeline s)
include h

/-- A store leaves the front half, so the byte channel B sent last, as it was (20_memory R84). -/
theorem Pipeline.stored {i : Instr} {m : Memory} (hst : Stores s i m) (hinit : s.initialized = true) (hg : Geometry s) :
    Pipeline { s with mem := m } := by
  obtain ⟨hprog, hcount, hsrc, hlock⟩ := h
  obtain ⟨hone, hle, -⟩ := hcount .a
  have hlast : State.lastSent { s with mem := m } = s.lastSent :=
    hst.read_front hinit hg (Geometry.bitTimeAddr_inFront hg hinit (k := s.len - s.chB.left - 1) (by omega))
  refine ⟨hprog, hcount, hsrc, ?_⟩
  rw [Lockstep, hlast]
  exact hlock

theorem Pipeline.afterEdge {e : Edge} (hphase : s.tmr.phase = e.source) (hopen : s.windowOK = true) :
    Pipeline (s.afterEdge e) := by
  have hlock : Lockstep (s.afterEdge e) := Lockstep.afterEdge h hphase hopen
  obtain ⟨hprog, hcount, hsrc, -⟩ := h
  cases e <;> exact ⟨hprog, hcount, hsrc, hlock⟩

/-- With no channel armed each has its full count, and the lines are low (10_state R57 item 2; 44_completion R196). -/
theorem Pipeline.full_and_low_of_idle (hidle : s.anyArmed = false) :
    (∀ x, (s.ch x).erq = false ∧ (s.ch x).citer = s.len) ∧ s.port.data = 0x00#8 := by
  obtain ⟨-, hcount, -, hlow, -⟩ := h
  refine ⟨fun x => ?_, hlow hidle⟩
  have herq : (s.ch x).erq = false := Bool.eq_false_iff.mpr fun hx =>
    Bool.noConfusion (hidle.symm.trans (State.anyArmed_of_erq hx))
  obtain ⟨-, -, hfull⟩ := hcount x
  exact ⟨herq, hfull herq⟩

/-- SH_SWAP, with no channel armed, leaves channel B at the first byte of the new front half (10_state R57 item 3). -/
theorem Pipeline.halvesSwapped (hidle : s.anyArmed = false) : Pipeline (shSwapEffect s) := by
  obtain ⟨hfull, hlow⟩ := Pipeline.full_and_low_of_idle h hidle
  obtain ⟨herq, -⟩ := hfull .b
  have harmed (p : Prop) (ht : (shSwapEffect s).anyArmed = true) : p := Bool.noConfusion (hidle.symm.trans ht)
  obtain ⟨⟨ha, hb, hc⟩, hcount, -, -⟩ := h
  refine ⟨⟨ha, hb, hc⟩, fun x => ?_, ?_, fun _ => hlow, harmed _, harmed _, harmed _⟩
  · cases x with
    | a => exact hcount .a
    | b => exact hcount .b
    | c => exact hcount .c
  · have hsame : (shSwapEffect s).chB.erq = false := herq
    rw [SourceOk, hsame]
    exact (BitVec.add_zero _).symm

/-- SH_ARM, with no channel armed and the timer aligned, makes channel A's first transfer due (43_sequencer R176). -/
theorem Pipeline.launched (hidle : s.anyArmed = false) (htail : s.tmr.phase = .tail) : Pipeline (shArmEffect s) := by
  obtain ⟨hfull, hlow⟩ := Pipeline.full_and_low_of_idle h hidle
  obtain ⟨-, hfullA⟩ := hfull .a
  obtain ⟨herqB, hfullB⟩ := hfull .b
  obtain ⟨-, hfullC⟩ := hfull .c
  obtain ⟨hprog, hcount, hsrc, -⟩ := h
  refine ⟨hprog, fun x => ?count, ?source, ?lockstep⟩
  case count =>
    obtain ⟨hone, hle, -⟩ := hcount x
    cases x <;> exact ⟨hone, hle, nofun⟩
  case source =>
    have hcountB : s.chB.citer = s.len := hfullB
    have hfirst : s.chB.src = s.front + BitVec.ofNat 32 0 := by
      have herq : s.chB.erq = false := herqB
      rw [SourceOk, herq] at hsrc
      exact hsrc
    calc s.chB.src = s.front + BitVec.ofNat 32 0 := hfirst
      _ = s.front + BitVec.ofNat 32 (s.len - s.chB.citer) := by rw [hcountB, Nat.sub_self]
  case lockstep =>
    refine Lockstep.of_due (x := .c) htail (fun e _ => by cases e <;> rfl) ?_
    exact ⟨hfullA.trans hfullC.symm, hfullB.trans hfullC.symm, hlow⟩

end

/-! ## SHOW and the frame -/

/-- With no frame in flight no channel is armed and no interrupt is pending. -/
theorem Flight.idle {s : State} (h : Flight s) (hflight : s.inFlight = false) : s.anyArmed = false ∧ s.irq.pend = false := by
  obtain ⟨hframe, -⟩ := h
  have hnone : ¬(s.anyArmed = true ∨ s.irq.pend = true) := fun hbegun =>
    Bool.noConfusion (hflight.symm.trans (hframe hbegun))
  rw [not_or, Bool.not_eq_true, Bool.not_eq_true] at hnone
  exact hnone

/-- While a frame is in flight SHOW has not passed its first wait (43_sequencer R171). -/
theorem HostPhase.Fits.of_inFlight {s t : State} {p : HostPhase} (h : p.Fits s) (hflight : s.inFlight = true)
    (hmask : t.imask = s.imask) (hrun : t.tmr.run = s.tmr.run) : p.Fits t := by
  cases p with
  | ready | shWaitInFlight =>
    obtain ⟨hunmasked, hruns⟩ := h
    exact ⟨hmask.trans hunmasked, hrun.trans hruns⟩
  | shSwap | shWaitGap | shMask | shAlignStop | shArm =>
    obtain ⟨hidle, -⟩ := h
    exact Bool.noConfusion (hflight.symm.trans hidle)

/-- HOST still fits where InFlight and the critical section are kept, no reset gap begins and a stopped timer is not moved. -/
theorem HostPhase.Fits.mono {s t : State} {p : HostPhase} (h : p.Fits s) (hflight : t.inFlight = s.inFlight)
    (hgap : s.gapRunning = false → t.gapRunning = false) (hmask : t.imask = s.imask) (hrun : t.tmr.run = s.tmr.run)
    (hphase : s.tmr.run = false → t.tmr.phase = s.tmr.phase) : p.Fits t := by
  simp only [HostPhase.Fits, hflight, hmask, hrun] at h ⊢
  cases p with
  | ready | shWaitInFlight | shSwap | shWaitGap => exact h
  | shMask | shAlignStop =>
    obtain ⟨hidle, hover, hrest⟩ := h
    exact ⟨hidle, hgap hover, hrest⟩
  | shArm =>
    obtain ⟨hidle, hover, hmasked, hstopped, htail⟩ := h
    exact ⟨hidle, hgap hover, hmasked, hstopped, (hphase hstopped).trans htail⟩

/-- A reset gap that is over does not run again as time goes on. -/
theorem State.gapRunning_advanced {s : State} (d : Nat) (h : s.gapRunning = false) :
    State.gapRunning { s with now := s.now + d } = false := by
  rw [Bool.eq_false_iff, ne_eq, State.gapRunning_iff] at h ⊢
  exact fun ⟨c, hc, hlt⟩ => h ⟨c, hc, by simp only at hlt; omega⟩

/-- A transfer is part of a frame, and channel C's last ends it with the interrupt (42_transmit_pipeline R158). -/
theorem Flight.served {s : State} {x : Chan} {v : Byte} (h : Flight s) (hpipe : Pipeline s) (hready : s.dmaReady x = true)
    (hbyte : s.sourceByte x = some v) : Flight (s.served x v) := by
  obtain ⟨hframe, hunfinished, hpending⟩ := h
  obtain ⟨herq, -⟩ := (State.dmaReady_iff s x).mp hready
  have harmed : s.anyArmed = true := State.anyArmed_of_erq herq
  have hflight : s.inFlight = true := hframe (.inl harmed)
  have hidle : s.irq.pend = false := Bool.eq_false_iff.mpr fun hpend =>
    Bool.noConfusion ((hpending hpend).symm.trans harmed)
  refine ⟨fun _ => (State.served_inFlight ..).trans hflight, fun _ => ?unfinished,
    Pipeline.served_pending hpipe hready hbyte hidle⟩
  case unfinished =>
    have hC : s.chC.erq = true := (hunfinished hflight).resolve_right (Bool.eq_false_iff.mp hidle)
    have hchC : (s.served x v).chC = if .c = x then (s.ch x).afterTransfer else s.chC := State.ch_served s x v .c
    by_cases hx : .c = x
    · subst hx
      obtain ⟨⟨-, -, ⟨-, -, -, -, -, -, hintmaj, -⟩⟩, -⟩ := hpipe
      by_cases hlast : s.chC.citer ≤ 1
      · exact .inr (by simp [State.ch, hintmaj, descriptor, hlast])
      · rw [hchC, if_pos rfl, State.ch, Channel.afterTransfer_of_more (Nat.lt_of_not_le hlast)]
        exact .inl hC
    · rw [hchC, if_neg hx]
      exact .inl hC

/-! ## A live block -/

theorem descriptor_programmed (x : Chan) (len : Nat) (a b : Addr) : (descriptor x len a).programmed (descriptor x len b) := by
  cases x <;> exact ⟨rfl, rfl, rfl, rfl, rfl, rfl, rfl, rfl⟩

/-- INIT leaves every channel disarmed with its full count, the lines low and the timer running (41_buffer_manager R130). -/
theorem live_initEffect {s : State} {n : Nat} (base : Addr) (size : Nat) (r : Rate) (hn : n ≠ 0) (hready : s.hostPhase = .ready) :
    Live (initEffect s n base size r) := by
  have hlen : 1 ≤ 24 * n := by omega
  refine ⟨rfl, ⟨⟨descriptor_programmed .a .., descriptor_programmed .b .., descriptor_programmed .c ..⟩, fun x => ?count,
    ?source, ?lockstep⟩, rfl, ⟨nofun, nofun, nofun⟩, ?host⟩
  case count => cases x <;> exact ⟨hlen, Nat.le_refl _, fun _ => rfl⟩
  case source => exact (BitVec.add_zero _).symm
  case lockstep => exact ⟨fun _ => rfl, nofun, nofun, nofun⟩
  case host => rw [initEffect_hostPhase, hready]; exact ⟨rfl, rfl⟩

section
variable {s : State} (h : Live s)
include h

/-- A request is served only while a frame is in flight, so wherever HOST stands it still fits. -/
theorem Live.served {x : Chan} {v : Byte} (hready : s.dmaReady x = true) (hbyte : s.sourceByte x = some v) :
    Live (s.served x v) where
  driven := by rw [State.served_port]; exact h.driven
  pipeline := Pipeline.served h.pipeline hready hbyte
  enabled := by rw [State.served_irq]; exact h.enabled
  flight := Flight.served h.flight h.pipeline hready hbyte
  host := by
    rw [State.served_hostPhase]
    exact h.host.mono (by simp) (by simp [State.gapRunning]) (by simp) (by simp) (by simp)

/-- An edge needs a running timer, so HOST does not stand at SH_ARM. -/
theorem Live.afterEdge {e : Edge} (htmr : s.tmr.run = true) (hphase : s.tmr.phase = e.source) (hopen : s.windowOK = true) :
    Live (s.afterEdge e) := by
  have hpipe : Pipeline (s.afterEdge e) := Pipeline.afterEdge h.pipeline hphase hopen
  have hrunning {p : Prop} (hstop : s.tmr.run = false) : p := Bool.noConfusion (htmr.symm.trans hstop)
  cases e <;> exact { h with pipeline := hpipe, host := h.host.mono rfl id rfl rfl hrunning }

/-- The handler ends a frame whose channels are all disarmed; HOST has not passed SH_WAIT_INFLIGHT (44_completion R190, R191). -/
theorem Live.handled (hready : s.irqReady = true) : Live (handlerBody s.irqEnter) := by
  obtain ⟨hframe, -, hpending⟩ := h.flight
  simp only [State.irqReady, Bool.and_eq_true] at hready
  obtain ⟨⟨hpend, -⟩, -⟩ := hready
  have hover : ¬(s.anyArmed = true ∨ false = true) := by simp [hpending hpend]
  exact { h with
    flight := ⟨fun hbegun => absurd hbegun hover, nofun, nofun⟩
    host := h.host.of_inFlight (hframe (.inr hpend)) rfl rfl }

/-- Every operation of HOST's program and of the scheduler keeps an initialised block live. -/
theorem Live.effect {t : State} {i : Instr} (he : Effect s i t) (hinit : s.initialized = true) (hg : Geometry s)
    (halign : s.params.alignMode = .assumed) (hissuer : i.issuer = .program ∨ i.issuer = .scheduler) : Live t := by
  have hfits {p : HostPhase} (hp : s.hostPhase = p) : p.Fits s := hp ▸ h.host
  cases he with
  | held | faulted | refused | observed => exact { h with }
  | stored hst => exact { h with pipeline := Pipeline.stored h.pipeline hst hinit hg }
  | configured _ _ _ _ _ hnot => exact Bool.noConfusion (hinit.symm.trans hnot)
  | showBegun hp => exact { h with host := hfits hp }
  | flightAwaited hp hflight => exact { h with host := ⟨hflight, hfits hp⟩ }
  | halvesSwapped hp =>
    obtain ⟨hflight, hrest⟩ := hfits hp
    obtain ⟨hidle, -⟩ := Flight.idle h.flight hflight
    exact { h with pipeline := Pipeline.halvesSwapped h.pipeline hidle, host := ⟨hflight, hrest⟩ }
  | gapAwaited hp hgap =>
    obtain ⟨hflight, hrest⟩ := hfits hp
    exact { h with host := ⟨hflight, hgap, hrest⟩ }
  | masked hp =>
    obtain ⟨hflight, hgap, -, hrun⟩ := hfits hp
    exact { h with host := ⟨hflight, hgap, rfl, hrun⟩ }
  | timerStopped hp _ haligned =>
    obtain ⟨hflight, hgap, hmask, -⟩ := hfits hp
    have htail : s.tmr.phase = .tail := Decidable.byContradiction fun hne => by
      rw [halign, alignAdmits_assumed hne] at haligned
      cases haligned
    exact { h with host := ⟨hflight, hgap, hmask, rfl, htail⟩ }
  | launched hp =>
    obtain ⟨hflight, -, -, -, htail⟩ := hfits hp
    obtain ⟨hidle, hpend⟩ := Flight.idle h.flight hflight
    exact { h with
      pipeline := Pipeline.launched h.pipeline hidle htail
      flight := ⟨fun _ => rfl, fun _ => .inl rfl, fun hset => Bool.noConfusion (hpend.symm.trans hset)⟩
      host := ⟨rfl, rfl⟩ }
  | edgeTaken e htmr hphase hopen => exact h.afterEdge htmr hphase hopen
  | served x v hready hbyte => exact h.served hready hbyte
  | handled hready => exact h.handled hready
  | advanced d => exact { h with host := h.host.mono rfl (State.gapRunning_advanced d) rfl rfl fun _ => rfl }
  | swapped | dataWritten | linesSet | linesCleared => simp [Instr.issuer] at hissuer

end

/-! ## The frame invariant -/

section
variable {s t : State} (h : FrameInv s)
include h

/-- An operation of HOST's program or of the scheduler keeps the frame invariant: INIT establishes what it says of an initialised
block, and every other operation keeps it. -/
theorem FrameInv.exec {i : Instr} (hissuer : i.issuer = .program ∨ i.issuer = .scheduler) (hexec : exec i s = .next t) :
    FrameInv t := by
  obtain ⟨halign, hplain, hle, hquiet, hg, hlive⟩ := (frameInv_iff s).mp h
  have he : Effect s i t := exec_effect hexec
  obtain ⟨-, hturns⟩ := he.program_turns_eq
  refine (frameInv_iff t).mpr ⟨by rw [he.params_eq]; exact halign, by rw [hturns]; exact hplain, he.completed_le_now hle,
    he.quiet hquiet, Geometry.exec hg hexec, fun hafter => ?_⟩
  rcases he.initialized_cases with hsame | ⟨n, base, size, rate, r, rfl, hbefore, rfl⟩
  · have hbefore : s.initialized = true := hsame ▸ hafter
    exact (hlive hbefore).effect he hbefore hg halign hissuer
  · obtain ⟨hready, hn, -⟩ := exec_init_checked hexec hbefore hafter
    exact live_initEffect base size r hn hready

/-- A fetch keeps the frame invariant, and takes an operation of HOST's program or of the scheduler (log 15). -/
theorem FrameInv.fetch :
    FrameInv (fetch s).2 ∧ ∀ o, (fetch s).1 = some o → o.issuer = .program ∨ o.issuer = .scheduler := by
  obtain ⟨halign, hplain, hrest⟩ := h
  obtain ⟨hplain', hissuer⟩ := fetch_plain hplain (Prod.eta (Machine.fetch s)).symm
  refine ⟨?_, hissuer⟩
  rw [fetch_frame] at hplain' ⊢
  exact ⟨halign, hplain', hrest⟩

end

/-- Settles O54: a step fetches, which keeps the invariant, and then executes an operation of HOST's program or of the scheduler, which
keeps it too, or marks a refusal, of which the invariant does not speak. -/
theorem everyStepKeepsTheFrameInvariant : Obligations.EveryStepKeepsTheFrameInvariant := by
  unfold Obligations.EveryStepKeepsTheFrameInvariant
  intro s t hinv h
  obtain ⟨hfetched, hissuer⟩ := hinv.fetch
  rcases step_next_cases h with rfl | rfl | ⟨o, i, ho, hi, he⟩
  · exact hfetched
  · exact hfetched
  · exact hfetched.exec (hi ▸ hissuer o ho) he

/-! ## The five items of R57 -/

/-- Settles O55: each item is a part of the invariant of an initialised block; before INIT no frame is in flight and no channel
armed. -/
theorem frameInvariantGivesTheFiveItems : Obligations.FrameInvariantGivesTheFiveItems := by
  unfold Obligations.FrameInvariantGivesTheFiveItems
  intro s hinv
  obtain ⟨-, -, -, hquiet, hg, hlive⟩ := (frameInv_iff s).mp hinv
  refine ⟨fun hinit => ?roles, fun hinit x => ?counts, fun herq => ?source, fun hflight => ?frame, fun hflight _ => ?idle⟩
  case roles =>
    obtain ⟨-, -, -, -, hroles⟩ := hg hinit
    exact hroles
  case counts =>
    obtain ⟨hprog, hcount, -⟩ := (hlive hinit).pipeline
    obtain ⟨hone, hle, -⟩ := hcount x
    obtain ⟨-, -, -, -, hbiter, -⟩ := (programmed_iff s).mp hprog x
    rw [descriptor_biter] at hbiter
    exact ⟨hone, hbiter ▸ hle, hbiter⟩
  case source =>
    obtain ⟨-, -, hsrc, -⟩ := (hlive (Quiet.initialized_of_erq hquiet (x := .b) herq)).pipeline
    rwa [SourceOk, if_pos herq] at hsrc
  case frame =>
    have hinit : s.initialized = true := Bool.of_not_eq_false fun hnot => by
      obtain ⟨-, hidle, -⟩ := hquiet hnot
      exact Bool.noConfusion (hflight.symm.trans hidle)
    obtain ⟨-, hunfinished, -⟩ := (hlive hinit).flight
    exact hunfinished hflight
  case idle =>
    refine (State.dmaErq_eq_zero_iff s).mpr (Bool.eq_false_iff.mpr fun harmed => ?_)
    obtain ⟨x, hx⟩ := (State.anyArmed_iff s).mp harmed
    obtain ⟨hidle, -⟩ := Flight.idle (hlive (Quiet.initialized_of_erq hquiet hx)).flight hflight
    exact Bool.noConfusion (hidle.symm.trans harmed)

end Sys2Proof.Machine
end
